-- ==== Sys2Proof/Word.lean ====
section
/-! DEFINITION. The word widths, the named codes and the port record of the HX711 load-cell amplifier interface:
spec/10_state.md (R20, R24, R41), spec/30_encoding.md (R90, R93, R98, R99). A one-bit level is a `Bool`, high (1) = `true`. -/

namespace Sys2Proof

/-- RawSample, `raw[23:0]` (R21). -/
abbrev RawSample := BitVec 24

/-- SignedSample, `sample[31:0]`, two's complement (R22, R98). -/
abbrev SignedSample := BitVec 32

/-- A GainSetting as its pulse count N (R32, R94); 0 is illegal. -/
abbrev GainCode := BitVec 2

/-- A hold duration in ticks, `HOLD_BITS = 16` (R7, R33). -/
abbrev HoldTicks := BitVec 16

/-- A ready timeout or ready count in ticks, `READY_BITS = 32` (R7, R34). -/
abbrev ReadyTicks := BitVec 32

/-- The four states of the acquisition state machine (R24). Their two-bit codes are `St.code` in Decode.lean. -/
inductive St where
  | idle | signExtend | pulseTrain | gainSelect
  deriving DecidableEq, Repr, Inhabited

/-- The slot a pulse belongs to: the field `g` of SETH, HOLD and SETL, 0 data, 1 gain (R91). -/
inductive Slot where
  | data | gain
  deriving DecidableEq, Repr, Inhabited

/-- Which hold of a pulse: the field `l` of HOLD, 0 high, 1 low (R91). -/
inductive HoldHalf where
  | high | low
  deriving DecidableEq, Repr, Inhabited

/-- The cause code, format `ERR` (R99): 0 none, 1 HardwareFault, 2 ReadyTimeout, 3 ProtocolViolation. -/
inductive ErrCode where
  | none | hardwareFault | readyTimeout | protocolViolation
  deriving DecidableEq, Repr, Inhabited

/-- The three GainSettings (R94). -/
inductive GainSetting where
  | a128 | a64 | b32
  deriving DecidableEq, Repr, Inhabited

/-- READY_MODE (R7): how "data ready" is established. -/
inductive ReadyMode where
  | poll | fixedDelay
  deriving DecidableEq, Repr, Inhabited

/-- SAMPLE_POINT (R7): where in the high phase DATA is read. -/
inductive SamplePoint where
  | afterHighHold | beforeHighHold
  deriving DecidableEq, Repr, Inhabited

/-- The levels on the block's input ports in one tick (R41). `clk_i` is the step itself. -/
structure Inputs where
  rst : Bool
  data : Bool
  pinFault : Bool
  cancel : Bool
  cfgWe : Bool
  cfgGain : GainCode
  cfgHold : HoldTicks
  cfgTimeout : ReadyTicks
  deriving DecidableEq, Repr, Inhabited

/-- The levels on the block's output ports (R41). -/
structure Outputs where
  clockO : Bool
  sampleO : SignedSample
  sampleValidO : Bool
  errO : BitVec 2
  errValidO : Bool
  cfgRejO : Bool
  stoppedO : Bool
  deriving DecidableEq, Repr, Inhabited

/-- A word of one of the block's two operation formats: `SEQ`, 5 bits (R90), or `CFGW`, 50 bits (R93). -/
inductive CodeWord where
  | seq (w : BitVec 5)
  | cfgw (w : BitVec 50)
  deriving DecidableEq, Repr, Inhabited

end Sys2Proof
end

