-- ==== Sys2Proof/Config.lean ====
section
/-! DEFINITION. The implementation parameters of spec/00_scope.md R7 and the free values. The parameters are the record
`Params`, which State carries and no step changes, so that every statement about every state is a statement about every
value of the OPEN ones (log entry 1). -/

namespace Sys2Proof

/-- The parameters a model takes as arguments (R7). `T_CLK` is the positive rational `tClkNum / tClkDen` in
microseconds (log entry 16). -/
structure Params where
  readyMode : ReadyMode
  samplePoint : SamplePoint
  tClkNum : Nat
  tClkDen : Nat
  readyTimeoutReset : ReadyTicks
  settleTicks : Nat
  deriving DecidableEq, Repr, Inhabited

/-- `ticks(D) = max(1, ceil(D / T_CLK))` for `D = dNum / dDen` microseconds (R100). -/
def Params.ticks (p : Params) (dNum dDen : Nat) : Nat :=
  max 1 ((dNum * p.tClkDen + (dDen * p.tClkNum - 1)) / (dDen * p.tClkNum))

/-- `ticks(1 us)` as an exact integer (R7, R100). -/
def Params.holdResetTicks (p : Params) : Nat := p.ticks 1 1

/-- The parameters lie in the ranges R7 gives them: a positive period, a hold of 1 us that fits `HOLD_BITS`, a timeout of
at least 1, a settle delay of at least 1 that the ready counter can reach. -/
def Params.ok (p : Params) : Bool :=
  decide (0 < p.tClkNum) && decide (0 < p.tClkDen) && decide (p.holdResetTicks < 65536) &&
    (p.readyTimeoutReset != 0) && decide (0 < p.settleTicks) && decide (p.settleTicks ≤ 4294967296)

/-- `HOLD_RESET_TICKS` as a register value (R7). -/
def Params.holdReset (p : Params) : HoldTicks := BitVec.ofNat 16 p.holdResetTicks

/-- `GAIN_N`: the pulse count of each GainSetting (R7, R94; C10, D29; log entry 17). -/
def Config.gainN (g : GainSetting) : GainCode :=
  match g with
  | .a128 => 1
  | .a64 => 2
  | .b32 => 3

/-- The parameters of `State.reset`: the spec's READY_MODE and SAMPLE_POINT (R7); for the OPEN ones the values that
spec/95_test_vectors.md runs with. DESIGN CHOICE, log entry 2. -/
def Config.params : Params :=
  { readyMode := .poll
    samplePoint := .afterHighHold
    tClkNum := 1
    tClkDen := 1
    readyTimeoutReset := 1000
    settleTicks := 4 }

/-- FREE VALUE. The input levels of a tick that no script gives: the environment's answers (R72), indexed by the tick
(log entry 3). -/
opaque Config.freeInputs : Nat → Inputs

/-- FREE VALUE. The converter's selection where the spec leaves it open (R43, U1, U2, U7; log entry 10). -/
opaque Config.freeSel : Nat → BitVec 2

/-- FREE VALUE. The physical level of the CLOCK pin after a failed access (U4; log entry 11). -/
opaque Config.freePin : Nat → Bool

end Sys2Proof
end

