-- ==== Sys2Proof/Syntax.lean ====
section
/-! DEFINITION. The instructions: the eleven sequencer primitives and the three forms of the host operation CFG, one
constructor per row of spec/opcode_table.json (R91, R94). -/

namespace Sys2Proof

/-- One constructor per row of the operation map. -/
inductive Instr where
  /-- CANC, the cancellation check (R185). -/
  | canc
  /-- LATG, latch the configuration (R160). -/
  | latg
  /-- RDY, one step of the wait for "data ready" (R140). -/
  | rdy
  /-- CLR, clear the assembler (R141). -/
  | clr
  /-- SEXT, sign-extend (R164). -/
  | sext
  /-- EMIT, deliver the sample (R166). -/
  | emit
  /-- SETH, drive the clock high in a slot of kind `g` (R120). -/
  | seth (g : Slot)
  /-- HOLD, keep the level: the half `l` of a pulse of a slot of kind `g` (R122). -/
  | hold (g : Slot) (l : HoldHalf)
  /-- SAMP, sample one data bit (R142). -/
  | samp
  /-- SHIN, shift the sampled bit in (R143). -/
  | shin
  /-- SETL, drive the clock low (R121). -/
  | setl (g : Slot)
  /-- CFG.A128 hold, timeout (R190, R94). -/
  | cfgA128 (hold : HoldTicks) (timeout : ReadyTicks)
  /-- CFG.A64 hold, timeout (R190, R94). -/
  | cfgA64 (hold : HoldTicks) (timeout : ReadyTicks)
  /-- CFG.B32 hold, timeout (R190, R94). -/
  | cfgB32 (hold : HoldTicks) (timeout : ReadyTicks)
  deriving DecidableEq, Repr, Inhabited

end Sys2Proof
end

