-- ==== Sys2Proof/WellFormed.lean ====
section
/-! DEFINITION. The legal operand values of R93: a CFG with hold 0 or timeout 0 is an illegal configuration word (R95).
Illegal CFGs still run: they take ProtocolViolation (R190, R222). Every operand of a sequencer primitive is legal. -/

namespace Sys2Proof

/-- `hold` is 1 .. 65535 (R93). -/
def legalHold (hold : HoldTicks) : Bool := hold != 0

/-- `timeout` is 1 .. 4294967295 (R93). -/
def legalTimeout (timeout : ReadyTicks) : Bool := timeout != 0

/-- Every operand of `i` has a legal value. -/
def WellFormed (i : Instr) : Bool :=
  match i with
  | .canc => true
  | .latg => true
  | .rdy => true
  | .clr => true
  | .sext => true
  | .emit => true
  | .seth _ => true
  | .hold _ _ => true
  | .samp => true
  | .shin => true
  | .setl _ => true
  | .cfgA128 hold timeout => legalHold hold && legalTimeout timeout
  | .cfgA64 hold timeout => legalHold hold && legalTimeout timeout
  | .cfgB32 hold timeout => legalHold hold && legalTimeout timeout

end Sys2Proof
end

