-- ==== Sys2Proof/Decode.lean ====
section
/-! DEFINITION. Decoder and encoder of the two operation formats: the operation map of R91 over the 5-bit sequencer word,
the reserved words of R92, the 50-bit configuration word of R93 with the gain code of R94. -/

namespace Sys2Proof

/-! ## Field codes -/

/-- The two-bit code of a state (R24, R90). -/
def St.code (st : St) : BitVec 2 :=
  match st with
  | .idle => 0b00
  | .signExtend => 0b01
  | .pulseTrain => 0b10
  | .gainSelect => 0b11

/-- The state of a two-bit code (R24, R90). -/
def St.ofCode (c : BitVec 2) : St :=
  if c = 0b00 then .idle else if c = 0b01 then .signExtend else if c = 0b10 then .pulseTrain else .gainSelect

/-- `st[1] = 1`: the states that pulse the clock (R24). -/
def St.pulsing (st : St) : Bool := st.code.getLsbD 1

/-- The field `g` (R91). -/
def Slot.bit (g : Slot) : BitVec 1 :=
  match g with
  | .data => 0
  | .gain => 1

/-- The slot of a field `g` (R91). -/
def Slot.ofBit (b : Bool) : Slot := if b then .gain else .data

/-- The field `l` (R91). -/
def HoldHalf.bit (l : HoldHalf) : BitVec 1 :=
  match l with
  | .high => 0
  | .low => 1

/-- The hold half of a field `l` (R91). -/
def HoldHalf.ofBit (b : Bool) : HoldHalf := if b then .low else .high

/-- The pulsing state of a slot kind: PulseTrain for data, GainSelect for gain; `st = 1g` (R91). -/
def Slot.st (g : Slot) : St :=
  match g with
  | .data => .pulseTrain
  | .gain => .gainSelect

/-- The cause code as the two bits of `err_o` (R99). -/
def ErrCode.code (c : ErrCode) : BitVec 2 :=
  match c with
  | .none => 0
  | .hardwareFault => 1
  | .readyTimeout => 2
  | .protocolViolation => 3

/-- The sequencer word `st : ph` (R90). -/
def seqWordOf (st : St) (ph : BitVec 3) : BitVec 5 := st.code ++ ph

/-- The state field `[4:3]` of a sequencer word (R90). -/
def seqSt (w : BitVec 5) : St := St.ofCode (w.extractLsb' 3 2)

/-- The phase field `[2:0]` of a sequencer word (R90). -/
def seqPh (w : BitVec 5) : BitVec 3 := w.extractLsb' 0 3

/-- The configuration word `timeout : hold : gain` (R93). -/
def cfgWordOf (timeout : ReadyTicks) (hold : HoldTicks) (gain : GainCode) : BitVec 50 := timeout ++ hold ++ gain

/-- `gain`, bits [1:0] of `CFGW` (R93). -/
def cfgwGain (w : BitVec 50) : GainCode := w.extractLsb' 0 2

/-- `hold`, bits [17:2] of `CFGW` (R93). -/
def cfgwHold (w : BitVec 50) : HoldTicks := w.extractLsb' 2 16

/-- `timeout`, bits [49:18] of `CFGW` (R93). -/
def cfgwTimeout (w : BitVec 50) : ReadyTicks := w.extractLsb' 18 32

/-- The GainSetting whose pulse count is the code, if there is one (R94). -/
def gainOfCode (c : GainCode) : Option GainSetting :=
  if c = Config.gainN .a128 then some .a128
  else if c = Config.gainN .a64 then some .a64
  else if c = Config.gainN .b32 then some .b32
  else none

/-! ## Decoder -/

/-- Why a word is no instruction. -/
inductive DecodeError where
  /-- One of the 16 reserved sequencer words (R92): safe, the step refuses. -/
  | reservedWord (w : BitVec 5)
  /-- A configuration word with gain 0 (R95): CFG rejects it, ProtocolViolation. -/
  | illegalGain
  deriving DecidableEq, Repr

/-- The operation map of R91: a word `w` selects the row when `w & mask = match`. -/
def decodeSeq (w : BitVec 5) : Except DecodeError Instr :=
  if w &&& 0x1F = 0x00 then .ok .canc
  else if w &&& 0x1F = 0x01 then .ok .latg
  else if w &&& 0x1F = 0x02 then .ok .rdy
  else if w &&& 0x1F = 0x03 then .ok .clr
  else if w &&& 0x1F = 0x08 then .ok .sext
  else if w &&& 0x1F = 0x09 then .ok .emit
  else if w &&& 0x17 = 0x10 then .ok (.seth (Slot.ofBit (w.getLsbD 3)))
  else if w &&& 0x13 = 0x11 then .ok (.hold (Slot.ofBit (w.getLsbD 3)) (HoldHalf.ofBit (w.getLsbD 2)))
  else if w &&& 0x1F = 0x12 then .ok .samp
  else if w &&& 0x1F = 0x13 then .ok .shin
  else if w &&& 0x17 = 0x14 then .ok (.setl (Slot.ofBit (w.getLsbD 3)))
  else .error (.reservedWord w)

/-- The CFG forms by the gain field (R93, R94). -/
def decodeCfgw (w : BitVec 50) : Except DecodeError Instr :=
  match gainOfCode (cfgwGain w) with
  | some .a128 => .ok (.cfgA128 (cfgwHold w) (cfgwTimeout w))
  | some .a64 => .ok (.cfgA64 (cfgwHold w) (cfgwTimeout w))
  | some .b32 => .ok (.cfgB32 (cfgwHold w) (cfgwTimeout w))
  | none => .error .illegalGain

/-- The decoder, total over both formats. -/
def decode (c : CodeWord) : Except DecodeError Instr :=
  match c with
  | .seq w => decodeSeq w
  | .cfgw w => decodeCfgw w

/-! ## Encoder -/

/-- The words of an instruction (R91, R93, R94). -/
def encode (i : Instr) : CodeWord :=
  match i with
  | .canc => .seq 0b00000
  | .latg => .seq 0b00001
  | .rdy => .seq 0b00010
  | .clr => .seq 0b00011
  | .sext => .seq 0b01000
  | .emit => .seq 0b01001
  | .seth g => .seq (1#1 ++ g.bit ++ 0b000#3)
  | .hold g l => .seq (1#1 ++ g.bit ++ l.bit ++ 0b01#2)
  | .samp => .seq 0b10010
  | .shin => .seq 0b10011
  | .setl g => .seq (1#1 ++ g.bit ++ 0b100#3)
  | .cfgA128 hold timeout => .cfgw (cfgWordOf timeout hold (Config.gainN .a128))
  | .cfgA64 hold timeout => .cfgw (cfgWordOf timeout hold (Config.gainN .a64))
  | .cfgB32 hold timeout => .cfgw (cfgWordOf timeout hold (Config.gainN .b32))

/-! ## The host's numbering -/

/-- The format a word of the operation table has. The table's two formats share no length and no marker bit: a `SEQ` row
has 5 bits (8 in whole bytes) and a `CFGW` word 50; a `CFGW` row of the table shows only its gain field, 2 bits. A word
given 5 to 8 bits is read as `SEQ`, any other as `CFGW` (log entry 13). -/
def tableWord (nbits w : Nat) : CodeWord :=
  if 5 ≤ nbits ∧ nbits ≤ 8 then .seq (BitVec.ofNat 5 w) else .cfgw (BitVec.ofNat 50 w)

/-- `w` has no bit beyond the word of its format. -/
def tableWordFits (nbits w : Nat) : Bool :=
  if 5 ≤ nbits ∧ nbits ≤ 8 then decide (w < 32) else decide (w < 2 ^ 50)

/-- The instruction the decoder reads from a word numbered as spec/opcode_table.json numbers it. -/
def decodeTableWord (nbits w : Nat) : Option Instr :=
  if tableWordFits nbits w then
    match decode (tableWord nbits w) with
    | .ok i => some i
    | .error _ => none
  else none

end Sys2Proof
end

