-- ==== Sys2Proof/Machine/State.lean ====
section
/-! DEFINITION. The state of one block instance: the record `S` of spec/10_state.md R20, the ports of R41 that are not
copies of a field of `S`, the converter's one piece of state (R43), the event history (R80) and the model's own fields.
All of it is plain data. -/

namespace Sys2Proof.Machine

/-- The event alphabet of R80. -/
inductive Event where
  /-- The state was reset; CLOCK driven low. -/
  | reset
  /-- CLOCK driven high: a rising edge. -/
  | ckHi
  /-- CLOCK driven low: a falling edge. -/
  | ckLo
  /-- CLOCK forced low by the abort entry. -/
  | ckForceLo
  /-- A level was held `h` ticks since the edge. -/
  | hold (h : HoldTicks)
  /-- DATA read as `b` while waiting for ready. -/
  | poll (b : Bool)
  /-- DATA read as `b` in a data slot. -/
  | rd (b : Bool)
  /-- SignedSample `v` delivered. -/
  | emit (v : SignedSample)
  /-- Error with cause code `c` surfaced. -/
  | err (c : ErrCode)
  /-- Configuration registers take gain code `g`, hold `h`, timeout `t`. -/
  | cfgOk (g : GainCode) (h : HoldTicks) (t : ReadyTicks)
  /-- `stopped` set; the run of this instance is over. -/
  | stop
  deriving DecidableEq, Repr

/-- A value of `conv_sel` (R43): the pulse count of a completed frame, or the `k`-th free draw where the spec leaves it
open (U1, U7). `ConvSel.value` in Ops.lean reads it. -/
inductive ConvSel where
  | pulses (n : GainCode)
  | free (k : Nat)
  deriving DecidableEq, Repr

/-- What the spec says of the converter's state (R43): not the block's; no rule of the block reads it. -/
structure Converter where
  /-- `conv_sel`: the selection the next conversion will use. -/
  sel : ConvSel
  /-- The selection under which the frame last read in full was converted (R163). -/
  readSel : ConvSel
  /-- No frame has been cut short; once one has, every selection is a free draw (U1). -/
  synced : Bool
  /-- How many free draws were taken. -/
  draws : Nat
  deriving DecidableEq, Repr

/-- The physical level of the CLOCK pin (U4): as last driven, or the `k`-th free draw after a failed access. -/
inductive PinLevel where
  | driven (v : Bool)
  | free (k : Nat)
  deriving DecidableEq, Repr

/-- The state. The first 18 fields are the record `S` of R20, in its order. -/
structure State where
  raw : RawSample
  bitLatch : Bool
  sample : SignedSample
  st : St
  ph : BitVec 3
  bitIdx : BitVec 5
  pulseIdx : BitVec 2
  holdCnt : HoldTicks
  readyCnt : ReadyTicks
  clock : Bool
  cfgGain : GainCode
  cfgHold : HoldTicks
  cfgTimeout : ReadyTicks
  nCur : GainCode
  holdCur : HoldTicks
  timeoutCur : ReadyTicks
  err : ErrCode
  stopped : Bool
  /-- `sample_valid_o` in the tick last executed (R41, R166). -/
  sampleValid : Bool
  /-- `err_valid_o` in the tick last executed (R41, R220, R221). -/
  errValid : Bool
  /-- `cfg_rej_o` in the tick last executed (R41, R222). -/
  cfgRej : Bool
  /-- The event history, oldest first (R80). -/
  history : List Event
  /-- The converter (R43). -/
  conv : Converter
  /-- The physical CLOCK pin (U4). -/
  pin : PinLevel
  /-- The model's own: how many free draws of the pin were taken. -/
  pinDraws : Nat
  /-- The parameters of R7; no step changes them (log entry 1). -/
  params : Params
  /-- The input ports in the tick about to run (R41). -/
  inp : Inputs
  /-- The model's own: the input ports of the ticks after it (log entry 3). -/
  script : List Inputs
  /-- The model's own: ticks run, the index of the free inputs beyond the script (log entry 3). -/
  tick : Nat
  deriving DecidableEq, Repr

/-- Why the machine stops with a fault. No instruction faults: the three exceptions of the spec are taken. -/
inductive Fault where
  /-- The host read `sample` as a valid sample before the first EMIT after reset (R22, U9); raised by `hostReadSample`,
  which no step calls. Safe: the spec says a model faults this read. -/
  | sampleNotDelivered
  deriving DecidableEq, Repr

/-- Why a step has no meaning. Every one is safe: the spec says a model refuses the state (R92, D26, U6). -/
inductive Refusal where
  /-- An instruction without a meaning; raised by an arm of `exec` only. Safe. -/
  | notModelled (mnemonic : String)
  /-- `seq` is one of the 16 reserved words; raised by the tick (R92). Safe. -/
  | reservedWord (w : BitVec 5)
  /-- A configuration word with gain 0 where an instruction is wanted. No tick raises it: CFG takes ProtocolViolation. Safe. -/
  | noSuchGain
  /-- `n_cur = 0`; raised by the tick (R92, U6). Safe. -/
  | zeroGainCount
  /-- `hold_cur = 0`; raised by the tick (R92, U6). Safe. -/
  | zeroHold
  /-- `timeout_cur = 0`; raised by the tick (R92, U6). Safe. -/
  | zeroTimeout
  /-- `bit_idx > 23`; raised by the tick (U6). Safe. -/
  | bitIdxOutOfRange
  /-- `pulse_idx >= n_cur` in a state no rule reaches; raised by the tick (U6, log entry 6). Safe. -/
  | pulseIdxOutOfRange
  /-- HOLD entered with `hold_cnt = 0`; raised by HOLD (R122). Safe. -/
  | holdCounterZero
  /-- A parameter outside the range R7 gives it; raised by the tick (log entry 16). Safe. -/
  | badParams
  deriving DecidableEq, Repr

/-- All input ports 0: the levels of spec/95_test_vectors.md section 9 "unless stated". DESIGN CHOICE for the tick after
reset, log entry 4. -/
def Inputs.quiet : Inputs :=
  { rst := false, data := false, pinFault := false, cancel := false, cfgWe := false, cfgGain := 0, cfgHold := 0,
    cfgTimeout := 0 }

/-- The state right after reset with the parameters `p`: the "reset" column of R20 and R46. -/
def State.resetWith (p : Params) : State :=
  { raw := 0
    bitLatch := false
    sample := 0
    st := .idle
    ph := 0
    bitIdx := 0
    pulseIdx := 0
    holdCnt := 0
    readyCnt := 0
    clock := false
    cfgGain := Config.gainN .a128
    cfgHold := p.holdReset
    cfgTimeout := p.readyTimeoutReset
    nCur := Config.gainN .a128
    holdCur := p.holdReset
    timeoutCur := p.readyTimeoutReset
    err := .none
    stopped := false
    sampleValid := false
    errValid := false
    cfgRej := false
    history := [.reset]
    conv := { sel := .free 0, readSel := .free 1, synced := true, draws := 2 }
    pin := .driven false
    pinDraws := 0
    params := p
    inp := Inputs.quiet
    script := []
    tick := 0 }

/-- The machine right after reset (R46, R250), with the parameters of `Config.params`. -/
def State.reset : State := State.resetWith Config.params

end Sys2Proof.Machine
end

