-- ==== Sys2Proof/Machine/Flags.lean ====
section
/-! DEFINITION. The block's conditions: the wire `raw_is_negative` (R29), the comparison of the ready wait (R140) and the
legality of a configuration (R95). The flag registers `err` and `stopped` are fields of State (R30, R31). -/

namespace Sys2Proof.Machine

/-- `raw_is_negative = (raw & 0x800000) != 0`, the wire `raw[23]` (R29). -/
def rawIsNegative (raw : RawSample) : Bool := (raw &&& 0x800000) != 0

/-- `c = ready_cnt + 1`, exact (R140). -/
def nextReadyCount (readyCnt : ReadyTicks) : Nat := readyCnt.toNat + 1

/-- `c >= timeout_cur`: this high poll is the last one allowed (R140). -/
def waitExpired (readyCnt timeoutCur : ReadyTicks) : Bool := decide (timeoutCur.toNat ≤ nextReadyCount readyCnt)

/-- `c >= SETTLE_TICKS`: the fixed settle delay is over (R140). -/
def settleOver (readyCnt : ReadyTicks) (settleTicks : Nat) : Bool := decide (settleTicks ≤ nextReadyCount readyCnt)

/-- `gain = 0b00 or hold = 0 or timeout = 0` does not hold (R95, R190). -/
def legalConfig (gain : GainCode) (hold : HoldTicks) (timeout : ReadyTicks) : Bool :=
  (gain != 0) && (hold != 0) && (timeout != 0)

end Sys2Proof.Machine
end

