-- ==== Sys2Proof/Machine/Operands.lean ====
section
/-! DEFINITION. The operand forms and the arithmetic: where each slot kind and half sends the sequencer (R90, R142, R181),
the 24-bit shift-in (R143), the assembly of RawSample (R97), sign extension (R164). -/

namespace Sys2Proof.Machine

/-- The phase after SETH: the high hold, phase 1; SAMP, phase 2, in a data slot sampled before the hold (R120, R142). -/
def phaseAfterSeth (p : SamplePoint) (g : Slot) : BitVec 3 :=
  match p, g with
  | .beforeHighHold, .data => 2
  | _, _ => 1

/-- The phase after SAMP: SHIN, phase 3; the high hold, phase 1, when DATA is sampled before it (R142). -/
def phaseAfterSamp (p : SamplePoint) : BitVec 3 :=
  match p with
  | .afterHighHold => 3
  | .beforeHighHold => 1

/-- The phase after the high hold of a data slot: SAMP, phase 2; SHIN, phase 3, when DATA was sampled before it (R181, R142). -/
def phaseAfterDataHigh (p : SamplePoint) : BitVec 3 :=
  match p with
  | .afterHighHold => 2
  | .beforeHighHold => 3

/-- `raw[22:0] : bit`, the MSB-first shift-in (R143). -/
def shiftIn (raw : RawSample) (bit : Bool) : RawSample := raw.extractLsb' 0 23 ++ BitVec.ofBool bit

/-- `assemble([b1, ..., bn])`: the shift-in repeated from 0, first bit first (R97). -/
def assemble (bits : List Bool) : RawSample := bits.foldl shiftIn 0

/-- `bits_of(x) = [x[23], x[22], ..., x[0]]` (R97). -/
def bitsOf (x : RawSample) : List Bool := (List.range 24).map fun k => x.getLsbD (23 - k)

/-- `sign_extend(raw)`: `raw - 2^24` when `raw_is_negative`, else `raw`, as a 32-bit word (R164). -/
def signExtendRaw (raw : RawSample) : SignedSample :=
  if rawIsNegative raw then raw.zeroExtend 32 - 16777216#32 else raw.zeroExtend 32

end Sys2Proof.Machine
end

