-- ==== Sys2Proof/Machine/Ops.lean ====
section
/-! DEFINITION. The named operations every meaning is written with: ports and pins (R11, R41), the event history (R12, R80),
the sequencer word (R10, R24), the converter (R43, U1), the three exception entries (R220 to R222), the successor of a HOLD
(R181 to R183), reset (R46) and the states a step refuses (R92, U6). -/

namespace Sys2Proof.Machine

/-! ## Outcomes, events and the sequencer word -/

/-- Run `f` on the next state, if there is one. -/
def andThen (o : Host.Outcome State Fault Refusal) (f : State → Host.Outcome State Fault Refusal) :
    Host.Outcome State Fault Refusal :=
  match o with
  | .next s => f s
  | .fault r => .fault r
  | .refused r => .refused r

/-- `event E` (R12): append `E` to the history (R80). -/
def record (e : Event) (s : State) : State := { s with history := s.history ++ [e] }

/-- `seq <- (ST, p)` (R10). -/
def goto (st : St) (ph : BitVec 3) (s : State) : State := { s with st := st, ph := ph }

/-- The sequencer word `seq = st : ph` (R24). -/
def State.seqWord (s : State) : BitVec 5 := seqWordOf s.st s.ph

/-! ## The converter and the physical pin -/

/-- The selection as a pulse count; a free draw has a free value (R43, U1, U7). -/
def ConvSel.value (c : ConvSel) : BitVec 2 :=
  match c with
  | .pulses n => n
  | .free k => Config.freeSel k

/-- The physical level of the CLOCK pin (U4). -/
def PinLevel.value (p : PinLevel) : Bool :=
  match p with
  | .driven v => v
  | .free k => Config.freePin k

/-- The last gain slot of a frame with `n` gain pulses is complete: the frame was converted under the selection in force,
and the next conversion uses `n` (R43, R163). After a cut frame the new selection is a free draw (U1). -/
def Converter.frameDone (n : GainCode) (c : Converter) : Converter :=
  if c.synced then { c with readSel := c.sel, sel := .pulses n }
  else { c with readSel := c.sel, sel := .free c.draws, draws := c.draws + 1 }

/-- A frame was cut short: the selection is a free draw, now and after every following frame (R43, U1). -/
def Converter.cut (c : Converter) : Converter :=
  { c with sel := .free c.draws, synced := false, draws := c.draws + 1 }

/-- The converter when the attempt ends by an abort or a reset: a frame is open, and so cut, in PulseTrain and GainSelect,
from the first data slot on (R66, R252, R262); elsewhere the converter has seen nothing (V145) and keeps its state. -/
def cutOpenFrame (s : State) : Converter := if s.st.pulsing then s.conv.cut else s.conv

/-! ## Pins and ports -/

/-- `PinRead(DATA)` (R11): `none` when the pin driver reports failure (R213), else the level. -/
def pinRead (s : State) : Option Bool := if s.inp.pinFault then none else some s.inp.data

/-- `PinWrite(CLOCK, v)` (R11): `none` when the pin driver reports failure (R213), else the state with the pin at `v`. -/
def pinWrite (v : Bool) (s : State) : Option State :=
  if s.inp.pinFault then none else some { s with clock := v, pin := .driven v }

/-- The output ports (R41): four mirror a field of `S` at all times, three are the strobes of the tick last executed. -/
def State.outputs (s : State) : Outputs :=
  { clockO := s.clock
    sampleO := s.sample
    sampleValidO := s.sampleValid
    errO := s.err.code
    errValidO := s.errValid
    cfgRejO := s.cfgRej
    stoppedO := s.stopped }

/-- The configuration word on the input ports, `cfg_timeout_i : cfg_hold_i : cfg_gain_i` (R93). -/
def Inputs.cfgWord (i : Inputs) : BitVec 50 := cfgWordOf i.cfgTimeout i.cfgHold i.cfgGain

/-- An `Emit` has been recorded since the last `Reset`: `sample` has been written and delivered (R22, U9). -/
def delivered (h : List Event) : Bool :=
  h.foldl (fun acc e => match e with | .reset => false | .emit _ => true | _ => acc) false

/-- The host reads `sample` as a sample: before the first EMIT this is a read of an unwritten register and faults (R22,
U9; log entry 15). The port `sample_o` itself always shows the register (`State.outputs`). -/
def hostReadSample (s : State) : Except Fault SignedSample :=
  if delivered s.history then .ok s.sample else .error .sampleNotDelivered

/-! ## Taking an exception -/

/-- HardwareFault entry, the abort (R220), from the state before the faulting primitive. A frame that is
open is cut (U1, R268; log entry 10) and the physical pin is open (U4, log entry 11). -/
def enterHardwareFault (s : State) : State :=
  { s with
    clock := false
    raw := 0
    bitLatch := false
    bitIdx := 0
    pulseIdx := 0
    holdCnt := 0
    readyCnt := 0
    err := .hardwareFault
    errValid := true
    st := .idle
    ph := 0
    history := s.history ++ [.ckForceLo, .err .hardwareFault]
    conv := cutOpenFrame s
    pin := .free s.pinDraws
    pinDraws := s.pinDraws + 1 }

/-- ReadyTimeout entry (R221), from the state before RDY's writes. -/
def enterReadyTimeout (s : State) : State :=
  record (.err .readyTimeout) (goto .idle 0 { s with readyCnt := 0, err := .readyTimeout, errValid := true })

/-- ProtocolViolation entry (R222). -/
def enterProtocolViolation (s : State) : State := record (.err .protocolViolation) { s with cfgRej := true }

/-- `raise K` (R12): the entry sequence of exception `K` (R210). There is no return primitive: entry saves nothing (R224). -/
def raise (k : ErrCode) (s : State) : State :=
  match k with
  | .none => s
  | .hardwareFault => enterHardwareFault s
  | .readyTimeout => enterReadyTimeout s
  | .protocolViolation => enterProtocolViolation s

/-! ## Sequencing -/

/-- End of a data slot (R182). -/
def endDataSlot (s : State) : State :=
  if s.bitIdx = 23 then goto .gainSelect 0 { s with pulseIdx := 0 }
  else goto .pulseTrain 0 { s with bitIdx := s.bitIdx + 1 }

/-- End of a gain slot (R183); after the last one the converter has seen the whole frame (R43). -/
def endGainSlot (s : State) : State :=
  if s.pulseIdx.toNat + 1 = s.nCur.toNat then goto .signExtend 0 { s with conv := s.conv.frameDone s.nCur }
  else goto .gainSelect 0 { s with pulseIdx := s.pulseIdx + 1 }

/-- `next_after_hold(S)` (R181). -/
def nextAfterHold (g : Slot) (l : HoldHalf) (s : State) : State :=
  match g, l with
  | .data, .high => goto .pulseTrain (phaseAfterDataHigh s.params.samplePoint) s
  | .gain, .high => goto .gainSelect 4 s
  | .data, .low => endDataSlot s
  | .gain, .low => endGainSlot s

/-- Write the three configuration registers (R190). -/
def writeConfig (gain : GainCode) (hold : HoldTicks) (timeout : ReadyTicks) (s : State) : State :=
  if legalConfig gain hold timeout then
    record (.cfgOk gain hold timeout) { s with cfgGain := gain, cfgHold := hold, cfgTimeout := timeout }
  else raise .protocolViolation s

/-! ## One tick's frame -/

/-- The strobes are 0 in every tick in which nothing raises them (R41, R166, R46). -/
def beginTick (s : State) : State := { s with sampleValid := false, errValid := false, cfgRej := false }

/-- The input levels `k` ticks ahead: the ports, then the script, then free draws (R72). -/
def State.inputAt (s : State) (k : Nat) : Inputs :=
  match k with
  | 0 => s.inp
  | k + 1 => match s.script[k]? with
    | some i => i
    | none => Config.freeInputs (s.tick + k)

/-- The tick is over: the ports take the levels of the next tick. -/
def endTick (s : State) : State :=
  { s with inp := s.inputAt 1, script := s.script.tail, tick := s.tick + 1 }

/-- The physical pin at a reset: driven low (R46), unless its level is open until the next successful access (U4). -/
def PinLevel.reset (p : PinLevel) : PinLevel :=
  match p with
  | .driven _ => .driven false
  | .free k => .free k

/-- Reset in mid-run (R46, R250): every field of `S` at its reset value, the strobes 0, `Reset` recorded. The history and
the converter are not the block's: an open frame is cut, nothing else changes (R252). -/
def applyReset (s : State) : State :=
  { State.resetWith s.params with
    history := s.history ++ [.reset]
    conv := cutOpenFrame s
    pin := s.pin.reset
    pinDraws := s.pinDraws
    inp := s.inp
    script := s.script
    tick := s.tick }

/-- The refusal a decoder's error becomes. -/
def refusalOf (e : DecodeError) : Refusal :=
  match e with
  | .reservedWord w => .reservedWord w
  | .illegalGain => .noSuchGain

/-- `pulse_idx` may still hold the last frame's count, 0 to 2, beside the `n_cur` of the attempt that is running or has timed
out: LATG writes `n_cur` alone (R160) and `pulse_idx` is cleared when GainSelect is entered (R182). So in RDY and CLR, in
PulseTrain, and at CANC and LATG after a ReadyTimeout. No rule reads it there (log entry 6). -/
abbrev State.pulseIdxStale (s : State) : Prop :=
  s.pulseIdx.toNat ≤ 2 ∧
    (s.st = .pulseTrain ∨
      (s.st = .idle ∧ (2 ≤ s.ph.toNat ∨ (s.err = .readyTimeout ∧ s.params.readyMode = .poll))))

/-- `pulse_idx >= n_cur` in a state the rules never reach (U6, log entry 6). -/
abbrev State.pulseIdxMeaningless (s : State) : Prop := s.nCur.toNat ≤ s.pulseIdx.toNat ∧ ¬ s.pulseIdxStale

/-- The states the spec gives no meaning (R92, U6, log entry 6); `none`: the sequencer may execute. -/
def State.meaningless? (s : State) : Option Refusal :=
  match decode (.seq s.seqWord) with
  | .error e => some (refusalOf e)
  | .ok _ =>
    if s.nCur = 0 then some .zeroGainCount
    else if s.holdCur = 0 then some .zeroHold
    else if s.timeoutCur = 0 then some .zeroTimeout
    else if 23 < s.bitIdx.toNat then some .bitIdxOutOfRange
    else if s.pulseIdxMeaningless then some .pulseIdxOutOfRange
    else none

/-! ## Placing an instruction -/

/-- Place a word where the next tick takes its instruction from: a `SEQ` word in `seq`, a `CFGW` word on the configuration
ports with `cfg_we_i = 1` (log entry 13). Reset and a second operation are kept out of the tick; a HOLD, which runs only
after SETH or SETL loaded `hold_cnt`, gets `hold_cnt = hold_cur` when it is 0. -/
def placeWord (s : State) (c : CodeWord) : State :=
  match c with
  | .seq w =>
    { s with
      st := seqSt w
      ph := seqPh w
      stopped := false
      holdCnt := if w &&& 0x13 = 0x11 ∧ s.holdCnt = 0 then s.holdCur else s.holdCnt
      inp := { s.inp with rst := false, cfgWe := false } }
  | .cfgw w =>
    { s with
      inp := { s.inp with
        rst := false
        cfgWe := true
        cfgGain := cfgwGain w
        cfgHold := cfgwHold w
        cfgTimeout := cfgwTimeout w } }

end Sys2Proof.Machine
end

