-- ==== Sys2Proof/Machine/Assembler.lean ====
section
/-! DEFINITION. The bit assembler and the wait for ready: RDY, CLR, SAMP, SHIN (spec/41_bit_assembler.md). -/

namespace Sys2Proof.Machine

/-- RDY with READY_MODE = poll (R140): HardwareFault comes before the read, ReadyTimeout after `Poll(1)` (R230). -/
def pollReady (s : State) : Host.Outcome State Fault Refusal :=
  match pinRead s with
  | none => .next (raise .hardwareFault s)
  | some false => .next (goto .idle 3 (record (.poll false) s))
  | some true =>
    if waitExpired s.readyCnt s.timeoutCur then .next (raise .readyTimeout (record (.poll true) s))
    else .next { record (.poll true) s with readyCnt := BitVec.ofNat 32 (nextReadyCount s.readyCnt) }

/-- RDY with READY_MODE = fixed_delay (R140): no pin is read and nothing is raised. -/
def settle (s : State) : Host.Outcome State Fault Refusal :=
  if settleOver s.readyCnt s.params.settleTicks then .next (goto .idle 3 s)
  else .next { s with readyCnt := BitVec.ofNat 32 (nextReadyCount s.readyCnt) }

/-- RDY (R140). -/
def execRdy (s : State) : Host.Outcome State Fault Refusal :=
  match s.params.readyMode with
  | .poll => pollReady s
  | .fixedDelay => settle s

/-- CLR (R141). -/
def execClr (s : State) : Host.Outcome State Fault Refusal :=
  .next (goto .pulseTrain 0 { s with raw := 0, bitLatch := false, bitIdx := 0 })

/-- SAMP (R142). -/
def execSamp (s : State) : Host.Outcome State Fault Refusal :=
  match pinRead s with
  | none => .next (raise .hardwareFault s)
  | some b => .next (goto .pulseTrain (phaseAfterSamp s.params.samplePoint) (record (.rd b) { s with bitLatch := b }))

/-- SHIN (R143). -/
def execShin (s : State) : Host.Outcome State Fault Refusal :=
  .next (goto .pulseTrain 4 { s with raw := shiftIn s.raw s.bitLatch })

end Sys2Proof.Machine
end

