-- ==== Sys2Proof/Machine/Loop.lean ====
section
/-! DEFINITION. The host-facing operations of the acquisition loop: CANC and the three forms of CFG
(spec/43_acquisition_loop.md). -/

namespace Sys2Proof.Machine

/-- CANC (R185): `seq` stays when the cancellation is honoured. -/
def execCanc (s : State) : Host.Outcome State Fault Refusal :=
  if s.inp.cancel then .next (record .stop { s with stopped := true }) else .next (goto .idle 1 s)

/-- CFG.A128 (R190, R94). -/
def execCfgA128 (hold : HoldTicks) (timeout : ReadyTicks) (s : State) : Host.Outcome State Fault Refusal :=
  .next (writeConfig (Config.gainN .a128) hold timeout s)

/-- CFG.A64 (R190, R94). -/
def execCfgA64 (hold : HoldTicks) (timeout : ReadyTicks) (s : State) : Host.Outcome State Fault Refusal :=
  .next (writeConfig (Config.gainN .a64) hold timeout s)

/-- CFG.B32 (R190, R94). -/
def execCfgB32 (hold : HoldTicks) (timeout : ReadyTicks) (s : State) : Host.Outcome State Fault Refusal :=
  .next (writeConfig (Config.gainN .b32) hold timeout s)

end Sys2Proof.Machine
end

