-- ==== Sys2Proof/Machine/Pulse.lean ====
section
/-! DEFINITION. The serial pulse driver: SETH, SETL, HOLD (spec/40_pulse_driver.md). -/

namespace Sys2Proof.Machine

/-- Drive CLOCK to `v`, load the hold counter, record the edge and go on to phase `ph` of the slot's state; a failing pin
driver raises HardwareFault (R120, R121). -/
def driveClock (v : Bool) (edge : Event) (g : Slot) (ph : BitVec 3) (s : State) : Host.Outcome State Fault Refusal :=
  match pinWrite v s with
  | none => .next (raise .hardwareFault s)
  | some s' => .next (goto g.st ph (record edge { s' with holdCnt := s.holdCur }))

/-- SETH (R120). The operand `g` is the low bit of the `st` it was fetched with, so the slot's state is `S.st`. -/
def execSeth (g : Slot) (s : State) : Host.Outcome State Fault Refusal :=
  driveClock true .ckHi g (phaseAfterSeth s.params.samplePoint g) s

/-- SETL (R121). -/
def execSetl (g : Slot) (s : State) : Host.Outcome State Fault Refusal := driveClock false .ckLo g 5 s

/-- HOLD (R122): one tick of a hold; the last one records `Hold` and takes `next_after_hold` (R181). A hold counter of 0
has no meaning (R122, R92). -/
def execHold (g : Slot) (l : HoldHalf) (s : State) : Host.Outcome State Fault Refusal :=
  if s.holdCnt = 0 then .refused .holdCounterZero
  else if s.holdCnt - 1 = 0 then .next (nextAfterHold g l (record (.hold s.holdCur) { s with holdCnt := 0 }))
  else .next { s with holdCnt := s.holdCnt - 1 }

end Sys2Proof.Machine
end

