-- ==== Sys2Proof/Machine/Selector.lean ====
section
/-! DEFINITION. The gain-multiplexer selector and the sign-extension post-processor: LATG, SEXT, EMIT
(spec/42_gain_sign.md). -/

namespace Sys2Proof.Machine

/-- LATG (R160). -/
def execLatg (s : State) : Host.Outcome State Fault Refusal :=
  .next (goto .idle 2
    { s with nCur := s.cfgGain, holdCur := s.cfgHold, timeoutCur := s.cfgTimeout, readyCnt := 0 })

/-- SEXT (R164). -/
def execSext (s : State) : Host.Outcome State Fault Refusal :=
  .next (goto .signExtend 1 { s with sample := signExtendRaw s.raw })

/-- EMIT (R166). -/
def execEmit (s : State) : Host.Outcome State Fault Refusal :=
  .next (goto .idle 0 (record (.emit s.sample) { s with sampleValid := true, err := .none }))

end Sys2Proof.Machine
end

