-- ==== Sys2Proof/Machine/Dispatch.lean ====
section
/-! DEFINITION. One arm per instruction: the meaning of each row of the operation map. -/

namespace Sys2Proof.Machine

def exec (i : Instr) (s : State) : Host.Outcome State Fault Refusal :=
  match i with
  | .canc => Sys2Proof.Machine.execCanc s
  | .latg => Sys2Proof.Machine.execLatg s
  | .rdy => Sys2Proof.Machine.execRdy s
  | .clr => Sys2Proof.Machine.execClr s
  | .sext => Sys2Proof.Machine.execSext s
  | .emit => Sys2Proof.Machine.execEmit s
  | .seth g => Sys2Proof.Machine.execSeth g s
  | .hold g l => Sys2Proof.Machine.execHold g l s
  | .samp => Sys2Proof.Machine.execSamp s
  | .shin => Sys2Proof.Machine.execShin s
  | .setl g => Sys2Proof.Machine.execSetl g s
  | .cfgA128 hold timeout => Sys2Proof.Machine.execCfgA128 hold timeout s
  | .cfgA64 hold timeout => Sys2Proof.Machine.execCfgA64 hold timeout s
  | .cfgB32 hold timeout => Sys2Proof.Machine.execCfgB32 hold timeout s

end Sys2Proof.Machine
end

