-- ==== Sys2Proof/Machine/Tick.lean ====
section
/-! DEFINITION. One tick of the block (R180): reset, or the sequencer's primitive and then CFG. -/

namespace Sys2Proof.Machine

/-- The primitive that `seq` selects (R180 (2)). -/
def runSequencer (s : State) : Host.Outcome State Fault Refusal :=
  if s.stopped then .next s
  else match decode (.seq s.seqWord) with
    | .ok i => exec i s
    | .error e => .refused (refusalOf e)

/-- The configuration operation on the ports (R180 (3), R190); a word with gain 0 is no form of CFG and is rejected with
ProtocolViolation (R95, R222). -/
def runConfig (s : State) : Host.Outcome State Fault Refusal :=
  if s.inp.cfgWe then
    match decode (.cfgw (Inputs.cfgWord s.inp)) with
    | .ok i => exec i s
    | .error .illegalGain => .next (raise .protocolViolation s)
    | .error (.reservedWord w) => .refused (.reservedWord w)
  else .next s

/-- A tick without reset: the sequencer, then CFG, whose events come second (R180). -/
def runAgents (s : State) : Host.Outcome State Fault Refusal :=
  match s.meaningless? with
  | some r => .refused r
  | none => andThen (runSequencer (beginTick s)) fun t => andThen (runConfig t) fun u => .next (endTick u)

/-- One tick (R180). Reset comes first and works from any state (R46, R230). -/
def runTick (s : State) : Host.Outcome State Fault Refusal :=
  if s.params.ok then
    if s.inp.rst then .next (endTick (applyReset s)) else runAgents s
  else .refused .badParams

end Sys2Proof.Machine
end

