-- ==== Sys2Proof/Machine/Step.lean ====
section
/-! DEFINITION. One step of the machine is one tick (R180), and where the next instruction is placed. -/

namespace Sys2Proof.Machine

/-- One step: one rising edge of `clk_i` (R180). -/
def step : State → Host.Outcome State Fault Refusal := runTick

/-- `s` with the instruction whose table word is `w` placed where the next step takes it from (log entry 13). -/
def State.withFetchWord (s : State) (nbits w : Nat) : State := placeWord s (tableWord nbits w)

end Sys2Proof.Machine
end

