-- ==== Sys2Proof/Safety.lean ====
section
/-! DEFINITION. What counts as a legal state (R45), the serial protocol a history obeys (R71, R80, R123, R225, R262) and
runs of many ticks under a quiet environment. -/

namespace Sys2Proof.Safety

open Sys2Proof.Machine

/-! ## The invariant of R45 -/

/-- The words in which `clock = 1` (R45 (e)). -/
def clockHighWord (st : St) (ph : BitVec 3) : Bool := st.pulsing && decide (1 ≤ ph.toNat) && decide (ph.toNat ≤ 4)

/-- The words in which the hold counter is loaded: a hold runs, or DATA is sampled before it (R27, R142). -/
def holdLoadedWord (p : SamplePoint) (st : St) (ph : BitVec 3) : Bool :=
  st.pulsing && (ph == 1 || ph == 5 || (ph == 2 && p == .beforeHighHold))

/-- (a) `seq` is one of the 16 defined words. -/
abbrev WordDefined (s : State) : Prop := (decode (.seq s.seqWord)).isOk = true

/-- (b) `n_cur` and `cfg_gain` are 1, 2 or 3. -/
abbrev GainsLegal (s : State) : Prop := s.nCur ≠ 0 ∧ s.cfgGain ≠ 0

/-- (c) `hold_cur`, `cfg_hold`, `timeout_cur`, `cfg_timeout` are at least 1. -/
abbrev DurationsLegal (s : State) : Prop :=
  s.holdCur ≠ 0 ∧ s.cfgHold ≠ 0 ∧ s.timeoutCur ≠ 0 ∧ s.cfgTimeout ≠ 0

/-- (d) `bit_idx <= 23`, exactly 23 after the data slots (R182); `pulse_idx < n_cur`, but where `pulse_idx` still holds the
last frame's count, at most 2, beside a newly latched `n_cur` (log entry 6). -/
abbrev SlotsLegal (s : State) : Prop :=
  s.bitIdx.toNat ≤ 23 ∧ (s.st = .gainSelect ∨ s.st = .signExtend → s.bitIdx = 23) ∧
    (s.pulseIdx.toNat < s.nCur.toNat ∨ s.pulseIdxStale)

/-- (e) `clock = 1` exactly from the step after SETH to the step SETL executes in. -/
abbrev ClockLegal (s : State) : Prop := s.clock = clockHighWord s.st s.ph

/-- (f) `sample` lies in -8388608 .. 8388607. -/
abbrev SampleLegal (s : State) : Prop := -8388608 ≤ s.sample.toInt ∧ s.sample.toInt ≤ 8388607

/-- (g) `stopped = 1` only at `(Idle, 0)`. -/
abbrev StoppedLegal (s : State) : Prop := s.stopped = true → s.st = .idle ∧ s.ph = 0

/-- (h) `err` is 0, 1 or 2. -/
abbrev ErrLegal (s : State) : Prop := s.err ≠ .protocolViolation

/-- R27: `hold_cnt` is 0 outside a hold, and at least 1 and at most `hold_cur` in one. -/
abbrev HoldCounterLegal (s : State) : Prop :=
  if holdLoadedWord s.params.samplePoint s.st s.ph = true then s.holdCnt ≠ 0 ∧ s.holdCnt.toNat ≤ s.holdCur.toNat
  else s.holdCnt = 0

/-- The ticks a wait may last: `timeout_cur` polls, or `SETTLE_TICKS` (R28, R140). -/
def waitLimit (s : State) : Nat :=
  match s.params.readyMode with
  | .poll => s.timeoutCur.toNat
  | .fixedDelay => s.params.settleTicks

/-- R28: `ready_cnt` never exceeds `timeout_cur - 1` (poll) or `SETTLE_TICKS - 1` (fixed delay). -/
abbrev ReadyCounterLegal (s : State) : Prop := s.readyCnt.toNat < waitLimit s

/-- The invariant: R45 (a) to (h), with R27, R28 and the parameters in range. -/
abbrev Legal (s : State) : Prop :=
  s.params.ok = true ∧ WordDefined s ∧ GainsLegal s ∧ DurationsLegal s ∧ SlotsLegal s ∧ ClockLegal s ∧ SampleLegal s ∧
    StoppedLegal s ∧ ErrLegal s ∧ HoldCounterLegal s ∧ ReadyCounterLegal s

/-- R45 (d) word for word, `pulse_idx < n_cur` in every state; the spec's own rules leave it (log entry 6). -/
abbrev PulseIdxBelowNCur (s : State) : Prop := s.pulseIdx.toNat < s.nCur.toNat

/-- R45 (a) to (h) word for word, the check on `S` that U6 names: no state with `pulse_idx >= n_cur` passes it. A step does
not ask for it, since the spec's own program P2 leaves it and goes on (log entry 6). -/
abbrev LegalAsWritten (s : State) : Prop := Legal s ∧ PulseIdxBelowNCur s

/-! ## The serial protocol as a property of histories -/

/-- How far the clock has come inside a pulse: low and held, high, high and held, low but not yet held (R123). -/
inductive Level where
  | lowHeld | high | highHeld | low
  deriving DecidableEq, Repr

/-- What a history says of the frame that is open at its end: the bits read, the rising edges, the clock. -/
structure FrameLog where
  bits : List Bool
  rises : Nat
  level : Level
  deriving DecidableEq, Repr

/-- No frame is open. -/
def FrameLog.closed : FrameLog := { bits := [], rises := 0, level := .lowHeld }

/-- One event of the serial protocol; `none`: the event breaks it. A pulse is CkHi, Hold, CkLo, Hold (R123); a data slot
reads exactly one bit while the clock is high and a gain slot none (R71 (b), R162); a sample follows 24 bits and 25 to 27
pulses and is the sign extension of the bits (R225, R262); polls and cancellation come only between frames (R146, R264);
a timed-out wait has issued no pulse (R221). CFG's events may fall anywhere (R190, log entry 18). -/
def FrameLog.advance (f : FrameLog) (e : Event) : Option FrameLog :=
  match e with
  | .reset => some .closed
  | .ckHi => if f.level = .lowHeld then some { f with rises := f.rises + 1, level := .high } else none
  | .ckLo =>
    if f.level = .highHeld ∧ f.bits.length = min f.rises 24 then some { f with level := .low } else none
  | .ckForceLo => some f
  | .hold _ =>
    match f.level with
    | .high => some { f with level := .highHeld }
    | .low => some { f with level := .lowHeld }
    | .lowHeld => none
    | .highHeld => none
  | .poll _ => if f = .closed then some f else none
  | .rd b =>
    if (f.level = .high ∨ f.level = .highHeld) ∧ f.bits.length + 1 = f.rises ∧ f.rises ≤ 24 then
      some { f with bits := f.bits ++ [b] }
    else none
  | .emit v =>
    if f.level = .lowHeld ∧ f.bits.length = 24 ∧ 25 ≤ f.rises ∧ f.rises ≤ 27 ∧ v = signExtendRaw (assemble f.bits) then
      some .closed
    else none
  | .err .hardwareFault => some .closed
  | .err .readyTimeout => if f = .closed then some f else none
  | .err .protocolViolation => some f
  | .err .none => none
  | .cfgOk _ _ _ => some f
  | .stop => if f = .closed then some f else none

/-- Read a history from the start; `none`: some event breaks the protocol. -/
def replay (h : List Event) : Option FrameLog :=
  h.foldl (fun o e => o.bind fun f => f.advance e) (some .closed)

/-- The level the protocol expects in a sequencer word (R90, R142). -/
def expectedLevel (p : SamplePoint) (st : St) (ph : BitVec 3) : Level :=
  if st.pulsing = false ∨ ph = 0 then .lowHeld
  else if ph = 5 then .low
  else if ph = 1 ∨ (st = .pulseTrain ∧ ph = 2 ∧ p = .beforeHighHold) then .high
  else .highHeld

/-- The rising edges the protocol expects: the slots completed and the one running (R25, R26). -/
def expectedRises (s : State) : Nat :=
  match s.st with
  | .idle => 0
  | .pulseTrain => s.bitIdx.toNat + (if s.ph = 0 then 0 else 1)
  | .gainSelect => 24 + s.pulseIdx.toNat + (if s.ph = 0 then 0 else 1)
  | .signExtend => 24 + s.nCur.toNat

/-- DATA has been sampled in the running data slot (R90, R142). -/
def sampledWord (p : SamplePoint) (ph : BitVec 3) : Bool :=
  ph == 3 || ph == 4 || ph == 5 || (ph == 1 && p == .beforeHighHold)

/-- The bits the protocol expects to have been read (R25). -/
def expectedBits (s : State) : Nat :=
  match s.st with
  | .idle => 0
  | .pulseTrain => s.bitIdx.toNat + (if sampledWord s.params.samplePoint s.ph = true then 1 else 0)
  | .gainSelect => 24
  | .signExtend => 24

/-- The sampled bit is latched and not yet shifted in (R23). -/
def latchedWord (p : SamplePoint) (st : St) (ph : BitVec 3) : Bool :=
  (st == .pulseTrain) && (ph == 3 || (ph == 1 && p == .beforeHighHold))

/-- The open frame of the history and the state tell the same story: edges, level, bits; `raw` assembles the bits shifted
in, and at EMIT `sample` is their sign extension (R145, R164). -/
def FrameMatches (s : State) (f : FrameLog) : Prop :=
  f.level = expectedLevel s.params.samplePoint s.st s.ph ∧ f.rises = expectedRises s ∧ f.bits.length = expectedBits s ∧
    (s.st ≠ .idle →
      assemble f.bits = if latchedWord s.params.samplePoint s.st s.ph = true then shiftIn s.raw s.bitLatch else s.raw) ∧
    (s.st = .signExtend → s.ph = 1 → s.sample = signExtendRaw s.raw)

/-- The history obeys the serial protocol and its open frame is the one the state is in. -/
def HistoryLegal (s : State) : Prop := ∃ f, replay s.history = some f ∧ FrameMatches s f

/-! ## Who may touch what -/

/-- The primitives that access a pin (R213): SETH, SETL, SAMP, and RDY when `READY_MODE = poll`. -/
def accessesPin (m : ReadyMode) (i : Instr) : Bool :=
  match i with
  | .canc => false
  | .latg => false
  | .rdy => m == .poll
  | .clr => false
  | .sext => false
  | .emit => false
  | .seth _ => true
  | .hold _ _ => false
  | .samp => true
  | .shin => false
  | .setl _ => true
  | .cfgA128 _ _ => false
  | .cfgA64 _ _ => false
  | .cfgB32 _ _ => false

/-- The primitives that read DATA (R62): SAMP, and RDY when `READY_MODE = poll`. -/
def readsData (m : ReadyMode) (i : Instr) : Bool :=
  match i with
  | .canc => false
  | .latg => false
  | .rdy => m == .poll
  | .clr => false
  | .sext => false
  | .emit => false
  | .seth _ => false
  | .hold _ _ => false
  | .samp => true
  | .shin => false
  | .setl _ => false
  | .cfgA128 _ _ => false
  | .cfgA64 _ _ => false
  | .cfgB32 _ _ => false

/-- `s` with another level on `pin_fault_i`. -/
def withPinFault (b : Bool) (s : State) : State := { s with inp := { s.inp with pinFault := b } }

/-- `s` with another level on `data_i`. -/
def withData (b : Bool) (s : State) : State := { s with inp := { s.inp with data := b } }

/-- `s` with another level on `cancel_i`. -/
def withCancel (b : Bool) (s : State) : State := { s with inp := { s.inp with cancel := b } }

/-- `s` with another gain slot count. -/
def withPulseIdx (k : BitVec 2) (s : State) : State := { s with pulseIdx := k }

/-- `s` with other levels on the configuration ports. -/
def withCfgPorts (we : Bool) (g : GainCode) (h : HoldTicks) (t : ReadyTicks) (s : State) : State :=
  { s with inp := { s.inp with cfgWe := we, cfgGain := g, cfgHold := h, cfgTimeout := t } }

/-- The configuration operation on the ports is one CFG accepts (R95, R190). -/
abbrev CfgAccepted (s : State) : Prop :=
  s.inp.cfgWe = true ∧ s.inp.cfgGain ≠ 0 ∧ s.inp.cfgHold ≠ 0 ∧ s.inp.cfgTimeout ≠ 0

/-- The configuration operation on the ports is one CFG rejects (R95, R222). -/
abbrev CfgRejected (s : State) : Prop :=
  s.inp.cfgWe = true ∧ (s.inp.cfgGain = 0 ∨ s.inp.cfgHold = 0 ∨ s.inp.cfgTimeout = 0)

/-- Everything but the configuration registers, `cfg_rej_o` and the history agrees: the fields of `S` the sequencer uses,
its strobes, the converter, the pin and the parameters. -/
abbrev SameSequencer (s t : State) : Prop :=
  t.raw = s.raw ∧ t.bitLatch = s.bitLatch ∧ t.sample = s.sample ∧ t.st = s.st ∧ t.ph = s.ph ∧ t.bitIdx = s.bitIdx ∧
    t.pulseIdx = s.pulseIdx ∧ t.holdCnt = s.holdCnt ∧ t.readyCnt = s.readyCnt ∧ t.clock = s.clock ∧ t.nCur = s.nCur ∧
    t.holdCur = s.holdCur ∧ t.timeoutCur = s.timeoutCur ∧ t.err = s.err ∧ t.stopped = s.stopped ∧
    t.sampleValid = s.sampleValid ∧ t.errValid = s.errValid ∧ t.conv = s.conv ∧ t.pin = s.pin ∧ t.params = s.params

/-- The sequencer words that may follow a word in a tick without reset (R184), in the order of the table; `0x00` follows a
pin primitive that raises HardwareFault. With SAMPLE_POINT = before_high_hold SAMP precedes the high hold (R142). -/
def successors (m : ReadyMode) (p : SamplePoint) (w : BitVec 5) : List (BitVec 5) :=
  if w = 0x00 then [0x01, 0x00]
  else if w = 0x01 then [0x02]
  else if w = 0x02 then (match m with | .poll => [0x03, 0x02, 0x00] | .fixedDelay => [0x03, 0x02])
  else if w = 0x03 then [0x10]
  else if w = 0x10 then (match p with | .afterHighHold => [0x11, 0x00] | .beforeHighHold => [0x12, 0x00])
  else if w = 0x11 then (match p with | .afterHighHold => [0x11, 0x12] | .beforeHighHold => [0x11, 0x13])
  else if w = 0x12 then (match p with | .afterHighHold => [0x13, 0x00] | .beforeHighHold => [0x11, 0x00])
  else if w = 0x13 then [0x14]
  else if w = 0x14 then [0x15, 0x00]
  else if w = 0x15 then [0x15, 0x10, 0x18]
  else if w = 0x18 then [0x19, 0x00]
  else if w = 0x19 then [0x19, 0x1C]
  else if w = 0x1C then [0x1D, 0x00]
  else if w = 0x1D then [0x1D, 0x18, 0x08]
  else if w = 0x08 then [0x09]
  else if w = 0x09 then [0x00]
  else []

/-- An event that ends an attempt: Reset, Emit, HardwareFault, ReadyTimeout (R225, log entry 18). -/
def boundary (e : Event) : Bool :=
  match e with
  | .reset => true
  | .emit _ => true
  | .err .hardwareFault => true
  | .err .readyTimeout => true
  | _ => false

/-- The bit a data slot read, if the event is one. -/
def readBit (e : Event) : Option Bool :=
  match e with
  | .rd b => some b
  | _ => none

/-! ## Runs of many ticks -/

/-- `k` ticks. -/
abbrev run (k : Nat) (s : State) : Host.Outcome State Fault Refusal := Host.Core.run Sys2Proof.core k s

/-- In the next `k` ticks there is no reset and no pin failure; CFG, cancellation and DATA are arbitrary. -/
abbrev Quiet (s : State) (k : Nat) : Prop := ∀ j < k, (s.inputAt j).rst = false ∧ (s.inputAt j).pinFault = false

/-- An event of the sequencer or of reset: every event but the two a CFG records (R180). -/
def ofSequencer (e : Event) : Bool :=
  match e with
  | .cfgOk _ _ _ => false
  | .err .protocolViolation => false
  | _ => true

/-- The history without CFG's events, which may fall in any tick (R180). -/
def sequencerHistory (s : State) : List Event := s.history.filter ofSequencer

/-- The ticks of a data slot, BITCYC, and of a gain slot, PULSE, with `h = hold_cur` (R270). -/
def dataSlotTicks (h : Nat) : Nat := 4 + 2 * h

/-- The ticks of a gain slot (R270). -/
def gainSlotTicks (h : Nat) : Nat := 2 + 2 * h

/-- The tick of a data slot in which SAMP executes, SETH being tick 0 (R142, R144). -/
def sampleTick (p : SamplePoint) (h : Nat) : Nat :=
  match p with
  | .afterHighHold => 1 + h
  | .beforeHighHold => 1

/-- The ticks of a complete cycle with `p` ticks of waiting, `h = hold_cur`, `n = n_cur` (R186). -/
def cycleTicks (p h n : Nat) : Nat := 101 + p + 48 * h + 2 * n * (1 + h)

/-- The tick of a cycle in which the `k`-th data slot samples DATA, CANC being tick 0 (R186). -/
def cycleSampleTick (sp : SamplePoint) (p h k : Nat) : Nat := 3 + p + k * dataSlotTicks h + sampleTick sp h

/-- The events of one PULSE (R123). -/
def pulseEvents (h : HoldTicks) : List Event := [.ckHi, .hold h, .ckLo, .hold h]

/-- The events of one BITCYC that reads `b` (R144); the order of `Hold` and `Rd` follows SAMPLE_POINT (R142). -/
def bitEvents (p : SamplePoint) (h : HoldTicks) (b : Bool) : List Event :=
  match p with
  | .afterHighHold => [.ckHi, .hold h, .rd b, .ckLo, .hold h]
  | .beforeHighHold => [.ckHi, .rd b, .hold h, .ckLo, .hold h]

/-- The events of a wait of `p` polls that ends ready; none with the fixed delay (R140, R186). -/
def waitEvents (m : ReadyMode) (p : Nat) : List Event :=
  match m with
  | .poll => List.replicate (p - 1) (.poll true) ++ [.poll false]
  | .fixedDelay => []

/-- The environment lets a wait that starts `j` ticks ahead end ready after `p` ticks: `p - 1` high polls and a low one
within the timeout `T`, or the settle delay (R140). -/
abbrev ReadyAfter (s : State) (j p T : Nat) : Prop :=
  if s.params.readyMode = .poll then
    1 ≤ p ∧ p ≤ T ∧ (∀ i < p - 1, (s.inputAt (j + i)).data = true) ∧ (s.inputAt (j + (p - 1))).data = false
  else p = s.params.settleTicks

end Sys2Proof.Safety
end

