-- ==== Sys2Proof/Certificates/Slice0/Obligations.lean ====
section
/-! DEFINITION. The statements for the provers, in the order of OBLIGATIONS.json. -/

open Sys2Proof Sys2Proof.Machine Sys2Proof.Safety

/-! ## Encoding -/

/-- Decoding an encoded instruction gives it back, every operand at every value (R91, R93, R94). -/
def Obligations.DecodeEncodeRoundTrip : Prop := ∀ i : Instr, decode (encode i) = .ok i

/-- Encoding a decoded word gives it back: each word has one meaning (R91, R93, R94). -/
def Obligations.EncodeDecodeRoundTrip : Prop := ∀ (c : CodeWord) (i : Instr), decode c = .ok i → encode i = c

/-- The operation map of R91: a word selects a row exactly when `w & mask = match`; the words of each row with its fields
`g` and `l`; the other 16 words select nothing (R92). -/
def Obligations.OperationMapWords : Prop :=
  (∀ w : BitVec 5,
    (w &&& 0x1F = 0x00 ↔ decode (.seq w) = .ok .canc) ∧ (w &&& 0x1F = 0x01 ↔ decode (.seq w) = .ok .latg) ∧
    (w &&& 0x1F = 0x02 ↔ decode (.seq w) = .ok .rdy) ∧ (w &&& 0x1F = 0x03 ↔ decode (.seq w) = .ok .clr) ∧
    (w &&& 0x1F = 0x08 ↔ decode (.seq w) = .ok .sext) ∧ (w &&& 0x1F = 0x09 ↔ decode (.seq w) = .ok .emit) ∧
    (w &&& 0x17 = 0x10 ↔ ∃ g, decode (.seq w) = .ok (.seth g)) ∧
    (w &&& 0x13 = 0x11 ↔ ∃ g l, decode (.seq w) = .ok (.hold g l)) ∧
    (w &&& 0x1F = 0x12 ↔ decode (.seq w) = .ok .samp) ∧ (w &&& 0x1F = 0x13 ↔ decode (.seq w) = .ok .shin) ∧
    (w &&& 0x17 = 0x14 ↔ ∃ g, decode (.seq w) = .ok (.setl g))) ∧
  decode (.seq 0x00) = .ok .canc ∧ decode (.seq 0x01) = .ok .latg ∧ decode (.seq 0x02) = .ok .rdy ∧
  decode (.seq 0x03) = .ok .clr ∧ decode (.seq 0x08) = .ok .sext ∧ decode (.seq 0x09) = .ok .emit ∧
  decode (.seq 0x10) = .ok (.seth .data) ∧ decode (.seq 0x18) = .ok (.seth .gain) ∧
  decode (.seq 0x11) = .ok (.hold .data .high) ∧ decode (.seq 0x15) = .ok (.hold .data .low) ∧
  decode (.seq 0x19) = .ok (.hold .gain .high) ∧ decode (.seq 0x1D) = .ok (.hold .gain .low) ∧
  decode (.seq 0x12) = .ok .samp ∧ decode (.seq 0x13) = .ok .shin ∧
  decode (.seq 0x14) = .ok (.setl .data) ∧ decode (.seq 0x1C) = .ok (.setl .gain) ∧
  ∀ w ∈ [0x04, 0x05, 0x06, 0x07, 0x0A, 0x0B, 0x0C, 0x0D, 0x0E, 0x0F, 0x16, 0x17, 0x1A, 0x1B, 0x1E, 0x1F],
    decode (.seq w) = .error (.reservedWord w)

/-- The configuration word of R93 as a number, `timeout * 2^18 + hold * 4 + gain`, and its decoding by the gain code of
R94: the code is the number of gain pulses, and 0 is no form of CFG. -/
def Obligations.ConfigurationWordFields : Prop :=
  ∀ (t : ReadyTicks) (h : HoldTicks) (g : GainCode),
    (cfgWordOf t h g).toNat = t.toNat * 2 ^ 18 + h.toNat * 4 + g.toNat ∧
    decode (.cfgw (cfgWordOf t h g)) =
      if g = 1 then .ok (.cfgA128 h t)
      else if g = 2 then .ok (.cfgA64 h t)
      else if g = 3 then .ok (.cfgB32 h t)
      else .error .illegalGain

/-- The operands a sequencer primitive is fetched with are the state and phase it is fetched in (R90, R91): `g` is the low
bit of `st`, and `l` separates the two holds. -/
def Obligations.FetchedOperandsAreTheState : Prop :=
  ∀ (s : State) (g : Slot) (l : HoldHalf),
    (decode (.seq s.seqWord) = .ok (.seth g) → s.st = g.st ∧ s.ph = 0) ∧
    (decode (.seq s.seqWord) = .ok (.setl g) → s.st = g.st ∧ s.ph = 4) ∧
    (decode (.seq s.seqWord) = .ok (.hold g l) → s.st = g.st ∧ s.ph = (match l with | .high => 1 | .low => 5)) ∧
    (decode (.seq s.seqWord) = .ok .samp → s.st = .pulseTrain ∧ s.ph = 2) ∧
    (decode (.seq s.seqWord) = .ok .shin → s.st = .pulseTrain ∧ s.ph = 3)

/-! ## The tick -/

/-- A step runs the decoded instruction (R180): the primitive that `seq` selects, on the state with the strobes at 0, then
the configuration operation on the ports, then the ports move to the next tick. -/
def Obligations.StepRunsTheDecodedInstruction : Prop :=
  ∀ (s : State) (i : Instr),
    s.params.ok = true → s.inp.rst = false → s.meaningless? = none → s.stopped = false →
    decode (.seq s.seqWord) = .ok i →
    step s = andThen (exec i (beginTick s)) fun u =>
      andThen (runConfig u) fun v => .next (endTick v)

/-- In the same tick CFG runs the instruction the configuration ports decode to, or nothing when `cfg_we_i = 0`
(R180 (3), R190). -/
def Obligations.ConfigRunsTheDecodedInstruction : Prop :=
  ∀ (u : State) (i : Instr),
    (u.inp.cfgWe = true → decode (.cfgw (Inputs.cfgWord u.inp)) = .ok i → runConfig u = exec i u) ∧
    (u.inp.cfgWe = false → runConfig u = .next u)

/-- When a step refuses. The states without a meaning are the ones R92 and U6 list, `pulse_idx >= n_cur` wherever the rules
themselves do not leave the last frame's count beside a newly latched `n_cur` (log entry 6, DEDUCED); a tick from one is refused whole, a stopped one and its CFG included (log entry
5, DEDUCED). A step refuses in these, in a running HOLD fetched with `hold_cnt = 0` (R122), with parameters out of range (log
entry 16), and in no other state; it never faults. -/
def Obligations.RefusedStatesAreTheMeaninglessOnes : Prop :=
  (∀ s : State, s.meaningless? ≠ none ↔
    (∀ i, decode (.seq s.seqWord) ≠ .ok i) ∨ s.nCur = 0 ∨ s.holdCur = 0 ∨ s.timeoutCur = 0 ∨ 23 < s.bitIdx.toNat ∨
      (s.nCur.toNat ≤ s.pulseIdx.toNat ∧
        (s.pulseIdx = 3 ∨ s.st = .gainSelect ∨ s.st = .signExtend ∨
          (s.st = .idle ∧ s.ph.toNat < 2 ∧ (s.err = .readyTimeout → s.params.readyMode = .fixedDelay))))) ∧
  (∀ s : State, s.params.ok = true → s.inp.rst = false → ∀ r, s.meaningless? = some r → step s = .refused r) ∧
  (∀ s : State, (∃ r, step s = .refused r) ↔
    s.params.ok = false ∨
    (s.inp.rst = false ∧ (s.meaningless? ≠ none ∨
      (s.stopped = false ∧ s.holdCnt = 0 ∧ ∃ g l, decode (.seq s.seqWord) = .ok (.hold g l))))) ∧
  (∀ (s : State) (r : Fault), step s ≠ .fault r)

/-- Reset (R46) with parameters in range (log entry 16): every field of `S` at the "reset" column of R20, no primitive and no
CFG, only `Reset` recorded, all strobes 0, the CLOCK pin low. The converter keeps what it had when no frame is open, else its
frame is cut (R252, log entry 10). A pin whose last access failed stays open (U4, log entry 11). -/
def Obligations.ResetTick : Prop :=
  ∀ s : State, s.params.ok = true → s.inp.rst = true →
    ∃ t, step s = .next t ∧
      t.raw = 0 ∧ t.bitLatch = false ∧ t.sample = 0 ∧ t.st = .idle ∧ t.ph = 0 ∧ t.bitIdx = 0 ∧ t.pulseIdx = 0 ∧
      t.holdCnt = 0 ∧ t.readyCnt = 0 ∧ t.clock = false ∧ t.cfgGain = 1 ∧
      t.cfgHold.toNat = s.params.ticks 1 1 ∧ t.cfgTimeout = s.params.readyTimeoutReset ∧ t.nCur = 1 ∧
      t.holdCur.toNat = s.params.ticks 1 1 ∧ t.timeoutCur = s.params.readyTimeoutReset ∧ t.err = .none ∧
      t.stopped = false ∧ t.sampleValid = false ∧ t.errValid = false ∧ t.cfgRej = false ∧
      t.history = s.history ++ [.reset] ∧ t.params = s.params ∧ t.conv = cutOpenFrame s ∧
      (s.st.pulsing = false → t.conv = s.conv) ∧ (s.st.pulsing = true → t.conv = s.conv.cut ∧ t.conv.synced = false) ∧
      (∀ v, s.pin = .driven v → t.pin = .driven false) ∧ (∀ k, s.pin = .free k → t.pin = .free k) ∧
      t.pinDraws = s.pinDraws

/-- `State.reset` is the state reset leaves, with the parameters of `Config.params` (R46); the OPEN parameters' values there
are the model's choice (log entry 2, DESIGN CHOICE), so this is stated for every value of them. -/
def Obligations.ResetStateIsWhatResetLeaves : Prop :=
  State.reset = State.resetWith Config.params ∧
  ∀ s : State, s.params.ok = true → s.inp.rst = true →
    ∃ t, step s = .next t ∧ SameSequencer { State.resetWith s.params with conv := t.conv, pin := t.pin } t ∧
      t.cfgGain = (State.resetWith s.params).cfgGain ∧ t.cfgHold = (State.resetWith s.params).cfgHold ∧
      t.cfgTimeout = (State.resetWith s.params).cfgTimeout

/-- `ticks(D) = max(1, ceil(D / T_CLK))` (R100): at least 1, long enough, and no tick more than needed; with `T_CLK = 1 us`
the default hold is 1 tick, with 100 ns it is 10. -/
def Obligations.TicksRoundUp : Prop :=
  (∀ (p : Params) (dNum dDen : Nat), 0 < p.tClkNum → 0 < p.tClkDen → 0 < dDen →
    1 ≤ p.ticks dNum dDen ∧
    dNum * p.tClkDen ≤ p.ticks dNum dDen * (dDen * p.tClkNum) ∧
    (1 < p.ticks dNum dDen → (p.ticks dNum dDen - 1) * (dDen * p.tClkNum) < dNum * p.tClkDen)) ∧
  (∀ p : Params, p.tClkNum = 1 → p.tClkDen = 1 → p.holdReset = 1) ∧
  (∀ p : Params, p.tClkNum = 1 → p.tClkDen = 10 → p.holdReset = 10)

/-- While `stopped = 1` the sequencer executes nothing, whatever the inputs but reset (R30, R180): only CFG may act. -/
def Obligations.StoppedSequencerDoesNothing : Prop :=
  ∀ s : State, Legal s → s.stopped = true → s.inp.rst = false →
    ∃ t, step s = .next t ∧ SameSequencer (beginTick s) t ∧ sequencerHistory t = sequencerHistory s ∧
      t.stopped = true ∧ t.st = .idle ∧ t.ph = 0 ∧ t.clock = false

/-! ## The pulse driver -/

/-- SETH (R120): CLOCK high, hold counter loaded, `CkHi`, then the high hold, phase 1; a failing pin driver raises
HardwareFault. With SAMPLE_POINT = before_high_hold a data slot goes to SAMP, phase 2 (R142, log entry 7). -/
def Obligations.SethDrivesTheClockHigh : Prop :=
  ∀ (g : Slot) (s : State),
    (s.inp.pinFault = false →
      exec (.seth g) s = .next { s with
        clock := true, pin := .driven true, holdCnt := s.holdCur, history := s.history ++ [.ckHi], st := g.st,
        ph := if g = .data ∧ s.params.samplePoint = .beforeHighHold then 2 else 1 }) ∧
    (s.inp.pinFault = true → exec (.seth g) s = .next (enterHardwareFault s))

/-- SETL (R121): CLOCK low, hold counter loaded, `CkLo`, then the low hold, phase 5; or HardwareFault. -/
def Obligations.SetlDrivesTheClockLow : Prop :=
  ∀ (g : Slot) (s : State),
    (s.inp.pinFault = false →
      exec (.setl g) s = .next { s with
        clock := false, pin := .driven false, holdCnt := s.holdCur, history := s.history ++ [.ckLo], st := g.st,
        ph := 5 }) ∧
    (s.inp.pinFault = true → exec (.setl g) s = .next (enterHardwareFault s))

/-- HOLD before its last tick (R122): the counter goes down by 1 and nothing else changes; an empty counter is refused. -/
def Obligations.HoldCountsDown : Prop :=
  ∀ (g : Slot) (l : HoldHalf) (s : State),
    (1 < s.holdCnt.toNat → exec (.hold g l) s = .next { s with holdCnt := s.holdCnt - 1 }) ∧
    (s.holdCnt = 0 → exec (.hold g l) s = .refused .holdCounterZero)

/-- HOLD's last tick (R122, R181, R182, R183): `Hold(hold_cur)`, then SAMP or SETL after a high hold, the next slot or the
next state after a low one. The converter's selection moves on with the last gain slot: to `n_cur` pulses
(R43), or to an open draw once a frame was cut (U1, log entry 10). -/
def Obligations.HoldEndsIntoTheNextSlot : Prop :=
  ∀ s : State, s.holdCnt = 1 →
    exec (.hold .data .high) s = .next { s with
      holdCnt := 0, history := s.history ++ [.hold s.holdCur], st := .pulseTrain,
      ph := if s.params.samplePoint = .beforeHighHold then 3 else 2 } ∧
    exec (.hold .gain .high) s = .next { s with
      holdCnt := 0, history := s.history ++ [.hold s.holdCur], st := .gainSelect, ph := 4 } ∧
    (s.bitIdx = 23 → exec (.hold .data .low) s = .next { s with
      holdCnt := 0, history := s.history ++ [.hold s.holdCur], pulseIdx := 0, st := .gainSelect, ph := 0 }) ∧
    (s.bitIdx.toNat < 23 → ∃ t, exec (.hold .data .low) s = .next t ∧ t.bitIdx.toNat = s.bitIdx.toNat + 1 ∧
      t = { s with
        holdCnt := 0, history := s.history ++ [.hold s.holdCur], bitIdx := t.bitIdx, st := .pulseTrain, ph := 0 }) ∧
    (s.pulseIdx.toNat + 1 = s.nCur.toNat → ∃ t, exec (.hold .gain .low) s = .next t ∧
      t = { s with
        holdCnt := 0, history := s.history ++ [.hold s.holdCur], conv := s.conv.frameDone s.nCur, st := .signExtend,
        ph := 0 } ∧
      (s.conv.synced = true → t.conv = { s.conv with readSel := s.conv.sel, sel := .pulses s.nCur }) ∧
      (s.conv.synced = false →
        t.conv = { s.conv with readSel := s.conv.sel, sel := .free s.conv.draws, draws := s.conv.draws + 1 })) ∧
    (s.pulseIdx.toNat + 1 < s.nCur.toNat → ∃ t, exec (.hold .gain .low) s = .next t ∧
      t.pulseIdx.toNat = s.pulseIdx.toNat + 1 ∧
      t = { s with
        holdCnt := 0, history := s.history ++ [.hold s.holdCur], pulseIdx := t.pulseIdx, st := .gainSelect, ph := 0 })

/-- A HOLD lasts exactly as many ticks as its counter says, and its word is kept until its last tick (R122). -/
def Obligations.HoldLastsItsCounter : Prop :=
  ∀ (s : State) (g : Slot) (l : HoldHalf), Legal s → s.stopped = false → decode (.seq s.seqWord) = .ok (.hold g l) →
    (∀ j < s.holdCnt.toNat, (s.inputAt j).rst = false) →
    (∀ j < s.holdCnt.toNat, ∃ t, run j s = .next t ∧ t.seqWord = s.seqWord ∧ t.holdCnt.toNat = s.holdCnt.toNat - j ∧
      t.clock = s.clock) ∧
    ∃ t, run s.holdCnt.toNat s = .next t ∧ t.holdCnt = 0 ∧ t.seqWord ≠ s.seqWord ∧ t.clock = s.clock ∧
      sequencerHistory t = sequencerHistory s ++ [.hold s.holdCur]

/-! ## The bit assembler -/

/-- RDY (R140): in poll mode HardwareFault before the read, ready on a low poll, the `timeout_cur`-th high poll times out
with its `Poll(1)` kept, any other high poll counts; in fixed_delay mode a tick of the settle delay, with no pin read. -/
def Obligations.RdyWaitsForReady : Prop :=
  ∀ s : State,
    (s.params.readyMode = .poll →
      (s.inp.pinFault = true → exec .rdy s = .next (enterHardwareFault s)) ∧
      (s.inp.pinFault = false → s.inp.data = false →
        exec .rdy s = .next { s with history := s.history ++ [.poll false], st := .idle, ph := 3 }) ∧
      (s.inp.pinFault = false → s.inp.data = true → s.readyCnt.toNat + 1 < s.timeoutCur.toNat →
        exec .rdy s = .next { s with history := s.history ++ [.poll true], readyCnt := s.readyCnt + 1 }) ∧
      (s.inp.pinFault = false → s.inp.data = true → s.timeoutCur.toNat ≤ s.readyCnt.toNat + 1 →
        exec .rdy s = .next { s with
          history := s.history ++ [.poll true, .err .readyTimeout], readyCnt := 0, err := .readyTimeout,
          errValid := true, st := .idle, ph := 0 })) ∧
    (s.params.readyMode = .fixedDelay →
      (s.params.settleTicks ≤ s.readyCnt.toNat + 1 → exec .rdy s = .next { s with st := .idle, ph := 3 }) ∧
      (s.readyCnt.toNat + 1 < s.params.settleTicks → exec .rdy s = .next { s with readyCnt := s.readyCnt + 1 }))

/-- CLR (R141): `raw`, `bit_latch`, `bit_idx` are 0, then PulseTrain; the clock and the rest stay. -/
def Obligations.ClrStartsTheFrame : Prop :=
  ∀ s : State,
    exec .clr s = .next { s with raw := 0, bitLatch := false, bitIdx := 0, st := .pulseTrain, ph := 0 }

/-- SAMP (R142): the level of DATA, not inverted, goes to `bit_latch`, `Rd(b)`, then SHIN; with SAMPLE_POINT =
before_high_hold the high hold comes next (log entry 7); or HardwareFault. -/
def Obligations.SampLatchesData : Prop :=
  ∀ s : State,
    (s.inp.pinFault = false →
      exec .samp s = .next { s with
        bitLatch := s.inp.data, history := s.history ++ [.rd s.inp.data], st := .pulseTrain,
        ph := if s.params.samplePoint = .beforeHighHold then 1 else 3 }) ∧
    (s.inp.pinFault = true → exec .samp s = .next (enterHardwareFault s))

/-- SHIN (R143): the logical shift `((raw << 1) | bit_latch)[23:0]`, MSB first, the old bit 23 dropped; then SETL. After `i`
shifts from 0, `i` up to 24, `raw` is `b1 * 2^(i-1) + ... + bi * 2^0`. -/
def Obligations.ShinShiftsMsbFirst : Prop :=
  (∀ bits : List Bool, bits.length ≤ 24 → (bits.foldl shiftIn 0).toNat =
    ((List.range bits.length).map fun k => (bits.getD k false).toNat * 2 ^ (bits.length - 1 - k)).sum) ∧
  ∀ s : State, ∃ t, exec .shin s = .next t ∧
    t.raw = shiftIn s.raw s.bitLatch ∧ t.raw = ((s.raw <<< 1) ||| (BitVec.ofBool s.bitLatch).zeroExtend 24) ∧
    t.raw.toNat = (2 * s.raw.toNat + s.bitLatch.toNat) % 2 ^ 24 ∧
    t.raw.getLsbD 0 = s.bitLatch ∧ (∀ k < 23, t.raw.getLsbD (k + 1) = s.raw.getLsbD k) ∧
    t = { s with raw := t.raw, st := .pulseTrain, ph := 4 }

/-- `assemble` (R97): the value of 24 bits is `b1 * 2^23 + ... + b24 * 2^0`, computed by repeating `raw = (raw << 1) | bit`
from 0; the k-th bit lands in `raw[24 - k]`; `assemble(bits_of(x)) == x`. -/
def Obligations.AssembleReadsMsbFirst : Prop :=
  (∀ x : RawSample, assemble (bitsOf x) = x) ∧
  (∀ bits : List Bool, assemble bits =
    bits.foldl (fun (raw : RawSample) b => (raw <<< 1) ||| (BitVec.ofBool b).zeroExtend 24) 0) ∧
  (∀ bits : List Bool, bits.length = 24 →
    (assemble bits).toNat = ((List.range 24).map fun k => (bits.getD k false).toNat * 2 ^ (23 - k)).sum ∧
    (∀ k < 24, (assemble bits).getLsbD (23 - k) = bits.getD k false) ∧
    bitsOf (assemble bits) = bits)

/-! ## The selector and the post-processor -/

/-- LATG (R160): the configuration is latched, the ready count cleared, then RDY. -/
def Obligations.LatgLatchesTheConfiguration : Prop :=
  ∀ s : State,
    exec .latg s = .next { s with
      nCur := s.cfgGain, holdCur := s.cfgHold, timeoutCur := s.cfgTimeout, readyCnt := 0, st := .idle, ph := 2 }

/-- SEXT (R164): `sample` as a signed number is `raw - 2^24` when bit 23 of `raw` is set, else `raw`; it is eight copies of
`raw[23]` over `raw` (R98), and `raw_is_negative` is `raw[23]` (R29); then EMIT; the rest stays. -/
def Obligations.SextSignExtendsRaw : Prop :=
  ∀ s : State, ∃ t, exec .sext s = .next t ∧
    t.sample.toInt = (if s.raw.getLsbD 23 = true then (s.raw.toNat : Int) - 16777216 else s.raw.toNat) ∧
    t.sample = (if rawIsNegative s.raw = true then s.raw.zeroExtend 32 - 16777216 else s.raw.zeroExtend 32) ∧
    rawIsNegative s.raw = s.raw.getLsbD 23 ∧
    t.sample.extractLsb' 0 24 = s.raw ∧ (∀ k < 8, t.sample.getLsbD (24 + k) = s.raw.getLsbD 23) ∧
    t = { s with sample := t.sample, st := .signExtend, ph := 1 }

/-- The laws of sign extension (R165): (a), (b) the value, (c) the bits, (d) injective with range exactly
-8388608 .. 8388607, (e) the same number at every width from 25 up; with the two examples of (b). -/
def Obligations.SignExtensionLaws : Prop :=
  (signExtendRaw 0x800001).toInt = -8388607 ∧ (signExtendRaw 0xFFFFFF).toInt = -1 ∧
  (∀ r : RawSample, r.getLsbD 23 = false → (signExtendRaw r).toInt = r.toNat) ∧
  (∀ r : RawSample, r.getLsbD 23 = true → (signExtendRaw r).toInt = (r.toNat : Int) - 16777216) ∧
  (∀ r : RawSample, signExtendRaw r = r.signExtend 32) ∧
  (∀ r q : RawSample, signExtendRaw r = signExtendRaw q → r = q) ∧
  (∀ v : Int, (∃ r : RawSample, (signExtendRaw r).toInt = v) ↔ -8388608 ≤ v ∧ v ≤ 8388607) ∧
  (∀ (r : RawSample) (w : Nat), 25 ≤ w → (r.signExtend w).toInt = (signExtendRaw r).toInt)

/-- EMIT (R166): the strobe, `Emit(sample)`, `err` cleared, back to Idle; the rest stays. The strobe starts every tick at 0
and no other instruction raises it. -/
def Obligations.EmitDeliversTheSample : Prop :=
  ∀ s : State,
    exec .emit s = .next { s with
      sampleValid := true, err := .none, history := s.history ++ [.emit s.sample], st := .idle, ph := 0 } ∧
    (beginTick s).sampleValid = false ∧
    ∀ (i : Instr) (t : State), i ≠ .emit → exec i s = .next t → t.sampleValid = s.sampleValid

/-- A host read of `sample` as a sample faults until the first EMIT after a reset, and gives `sample` from then on (R22, U9;
log entry 15): a reset makes it fault, an EMIT makes it good, and no other tick changes which of the two it is. -/
def Obligations.HostReadNeedsAnEmit : Prop :=
  (∀ s : State, hostReadSample s = if delivered s.history = true then .ok s.sample else .error .sampleNotDelivered) ∧
  (∀ p : Params, hostReadSample (State.resetWith p) = .error .sampleNotDelivered) ∧
  (∀ s t : State, s.inp.rst = true → step s = .next t → hostReadSample t = .error .sampleNotDelivered) ∧
  (∀ s t : State, exec .emit s = .next t → hostReadSample t = .ok s.sample) ∧
  (∀ s t : State, s.inp.rst = false → s.stopped = false → decode (.seq s.seqWord) = .ok .emit → step s = .next t →
    hostReadSample t = .ok s.sample) ∧
  (∀ s t : State, s.inp.rst = false → (s.stopped = true ∨ decode (.seq s.seqWord) ≠ .ok .emit) → step s = .next t →
    delivered t.history = delivered s.history)

/-! ## The loop and the configuration -/

/-- CANC (R185): a cancellation request sets `stopped` and records `Stop`, `seq` staying where it is; else LATG is next. -/
def Obligations.CancHonoursCancellation : Prop :=
  ∀ s : State,
    (s.inp.cancel = true → exec .canc s = .next { s with stopped := true, history := s.history ++ [.stop] }) ∧
    (s.inp.cancel = false → exec .canc s = .next { s with st := .idle, ph := 1 })

/-- CFG (R190, R94): a legal form writes the three registers together and records `CfgOk`; hold 0 or timeout 0 is rejected
with ProtocolViolation: no register changes, `cfg_rej_o`, `Err(3)` (R222). -/
def Obligations.CfgWritesTheThreeRegisters : Prop :=
  ∀ (h : HoldTicks) (t : ReadyTicks) (s : State) (i : Instr) (g : GainCode),
    (i = .cfgA128 h t ∧ g = 1) ∨ (i = .cfgA64 h t ∧ g = 2) ∨ (i = .cfgB32 h t ∧ g = 3) →
    (WellFormed i = true →
      exec i s = .next { s with cfgGain := g, cfgHold := h, cfgTimeout := t, history := s.history ++ [.cfgOk g h t] }) ∧
    (WellFormed i = false →
      exec i s = .next { s with cfgRej := true, history := s.history ++ [.err .protocolViolation] })

/-- ProtocolViolation entry (R222): a configuration operation that breaks the protocol, gain 0 included, changes no register,
pulses `cfg_rej_o` and records `Err(3)`; nothing else changes, not `err`, not `seq`, not the running cycle. -/
def Obligations.ProtocolViolationOnlyAnswersTheHost : Prop :=
  ∀ s : State, CfgRejected s →
    runConfig s = .next { s with cfgRej := true, history := s.history ++ [.err .protocolViolation] }

/-- A tick without reset: an accepted configuration operation is in the registers afterwards, a rejected one, gain 0
included, leaves them and pulses `cfg_rej_o`, none leaves both (R95, R180 (3), R190, R222). -/
def Obligations.ConfigurationPortsInATick : Prop :=
  ∀ s t : State, s.inp.rst = false → step s = .next t →
    (CfgAccepted s → t.cfgGain = s.inp.cfgGain ∧ t.cfgHold = s.inp.cfgHold ∧ t.cfgTimeout = s.inp.cfgTimeout ∧
      t.cfgRej = false) ∧
    (CfgRejected s → t.cfgGain = s.cfgGain ∧ t.cfgHold = s.cfgHold ∧ t.cfgTimeout = s.cfgTimeout ∧ t.cfgRej = true ∧
      ∃ h, t.history = h ++ [.err .protocolViolation]) ∧
    (s.inp.cfgWe = false → t.cfgGain = s.cfgGain ∧ t.cfgHold = s.cfgHold ∧ t.cfgTimeout = s.cfgTimeout ∧
      t.cfgRej = false)

/-- A LATG does not see a CFG of its own tick (R77, R160): it latches the registers from before the tick, while the accepted
words are in the registers from the next tick on. -/
def Obligations.LatgMissesTheSameTicksCfg : Prop :=
  ∀ s : State, Legal s → s.inp.rst = false → s.stopped = false → s.st = .idle → s.ph = 1 →
    ∃ t, step s = .next t ∧ t.nCur = s.cfgGain ∧ t.holdCur = s.cfgHold ∧ t.timeoutCur = s.cfgTimeout ∧ t.readyCnt = 0 ∧
      t.st = .idle ∧ t.ph = 2 ∧
      (CfgAccepted s → t.cfgGain = s.inp.cfgGain ∧ t.cfgHold = s.inp.cfgHold ∧ t.cfgTimeout = s.inp.cfgTimeout)

/-- The sequencer of a tick does not depend on the configuration ports (R180, R190): with any other levels on them the tick
answers too, and agrees on everything but the configuration registers, `cfg_rej_o` and CFG's events. -/
def Obligations.CfgDoesNotDisturbTheSequencer : Prop :=
  ∀ (s t : State) (we : Bool) (g : GainCode) (h : HoldTicks) (tmo : ReadyTicks), step s = .next t →
    ∃ u, step (withCfgPorts we g h tmo s) = .next u ∧ SameSequencer t u ∧ sequencerHistory u = sequencerHistory t

/-! ## Exceptions -/

/-- HardwareFault entry (R213, R220): every pin primitive whose access fails has none of its own effects and aborts the
attempt; `sample`, the configuration, the latched configuration and `stopped` stay. A frame
that is open is cut, and with none open (RDY in Idle, V145) the converter keeps its state (R43, U1, R268; log entry 10); the
physical pin is an open draw (U4, log entry 11). -/
def Obligations.HardwareFaultAbortsTheAttempt : Prop :=
  ∀ (i : Instr) (s : State), accessesPin s.params.readyMode i = true → s.inp.pinFault = true →
    ∃ t, exec i s = .next t ∧
      t.clock = false ∧ t.raw = 0 ∧ t.bitLatch = false ∧ t.bitIdx = 0 ∧ t.pulseIdx = 0 ∧ t.holdCnt = 0 ∧ t.readyCnt = 0 ∧
      t.err = .hardwareFault ∧ t.outputs.errO = 1 ∧ t.errValid = true ∧ t.st = .idle ∧ t.ph = 0 ∧
      t.history = s.history ++ [.ckForceLo, .err .hardwareFault] ∧
      t.conv = cutOpenFrame s ∧ (s.st.pulsing = false → t.conv = s.conv) ∧
      (s.st.pulsing = true → t.conv = s.conv.cut ∧ t.conv.synced = false ∧ t.conv.readSel = s.conv.readSel ∧
        t.conv.sel = .free s.conv.draws ∧ t.conv.draws = s.conv.draws + 1) ∧
      t.pin = .free s.pinDraws ∧ t.pinDraws = s.pinDraws + 1 ∧
      t.sample = s.sample ∧ t.cfgGain = s.cfgGain ∧ t.cfgHold = s.cfgHold ∧ t.cfgTimeout = s.cfgTimeout ∧
      t.nCur = s.nCur ∧ t.holdCur = s.holdCur ∧ t.timeoutCur = s.timeoutCur ∧ t.stopped = s.stopped ∧
      t.sampleValid = s.sampleValid ∧ t.cfgRej = s.cfgRej ∧ t.params = s.params

/-- `pin_fault_i` is ignored by every primitive that accesses no pin (R213). -/
def Obligations.PinFaultIgnoredWithoutAPinAccess : Prop :=
  ∀ (i : Instr) (s : State) (b : Bool), accessesPin s.params.readyMode i = false →
    exec i (withPinFault b s) = andThen (exec i s) fun t => .next (withPinFault b t)

/-- DATA is read by SAMP and by RDY in poll mode and by nothing else (R62): whatever the converter puts on it otherwise, in
the gain slots above all (R162), is ignored. -/
def Obligations.DataIgnoredOutsideSampAndRdy : Prop :=
  ∀ (i : Instr) (s : State) (b : Bool), readsData s.params.readyMode i = false →
    exec i (withData b s) = andThen (exec i s) fun t => .next (withData b t)

/-- CANC is the only reader of `cancel_i` (R185, R216). -/
def Obligations.CancelReadByCancOnly : Prop :=
  ∀ (i : Instr) (s : State) (b : Bool), i ≠ .canc →
    exec i (withCancel b s) = andThen (exec i s) fun t => .next (withCancel b t)

/-- Simultaneous events (R230): a failed poll is a HardwareFault, never a ReadyTimeout, and a configuration rejected in the
same tick is reported on its own strobe, its `Err(3)` after the sequencer's `Err(1)`. -/
def Obligations.FaultFirstAndCfgIndependent : Prop :=
  ∀ (i : Instr) (s : State), Legal s → s.inp.rst = false → s.stopped = false → decode (.seq s.seqWord) = .ok i →
    accessesPin s.params.readyMode i = true → s.inp.pinFault = true →
    ∃ t, step s = .next t ∧ t.err = .hardwareFault ∧ t.errValid = true ∧ t.st = .idle ∧ t.ph = 0 ∧ t.clock = false ∧
      (CfgRejected s → t.cfgRej = true ∧
        t.history = s.history ++ [.ckForceLo, .err .hardwareFault, .err .protocolViolation])

/-! ## Whole-machine rules -/

/-- Reset leaves a state that R45 holds in word for word, for every value of the OPEN parameters (R45, R46). -/
def Obligations.ResetIsLegal : Prop := ∀ p : Params, p.ok = true → LegalAsWritten (State.resetWith p)

/-- Every tick keeps the state legal: R45 (a) to (h), with (d) as log entry 6 reads it, R27 and R28. R45 word for word, `pulse_idx < n_cur`
in every state, is left by exactly the ticks in which LATG latches a gain code that the last frame's `pulse_idx` is not below
(R160); and the low hold of a gain slot is the only primitive that `pulse_idx` makes a difference to, beyond `pulse_idx`
itself (R183), so no other state's behaviour depends on how (d) is read. -/
def Obligations.StepKeepsLegal : Prop :=
  (∀ s t : State, Legal s → step s = .next t → Legal t) ∧
  (∀ s t : State, LegalAsWritten s → step s = .next t →
    (LegalAsWritten t ↔
      s.inp.rst = true ∨ decode (.seq s.seqWord) ≠ .ok .latg ∨ s.pulseIdx.toNat < s.cfgGain.toNat)) ∧
  (∀ (i : Instr) (s : State) (k : BitVec 2), i ≠ .hold .gain .low →
    (andThen (exec i (withPulseIdx k s)) fun t => .next (withPulseIdx 0 t)) =
      andThen (exec i s) fun t => .next (withPulseIdx 0 t))

/-- A legal state is never refused and never faults: every instruction that can be reached runs (R45, R92). -/
def Obligations.LegalStatesAlwaysStep : Prop := ∀ s : State, Legal s → ∃ t, step s = .next t

/-- R45 word for word is not kept: LATG may latch a smaller `n_cur` while `pulse_idx` still holds the last frame's count
(R160, R183, program P2). Expected to fail; log entry 6. -/
def Obligations.LiteralPulseIdxBound : Prop :=
  ∀ s t : State, LegalAsWritten s → step s = .next t → LegalAsWritten t

/-- The successor of every sequencer word is one the table of R184 lists. -/
def Obligations.SuccessorsAreTheTables : Prop :=
  ∀ s t : State, Legal s → s.inp.rst = false → s.stopped = false → step s = .next t →
    t.seqWord ∈ successors s.params.readyMode s.params.samplePoint s.seqWord

/-- Whenever `st` is Idle or SignExtend after a tick, CLOCK and `clock_o` are low (R187). -/
def Obligations.ClockLowInIdleAndSignExtend : Prop :=
  ∀ s t : State, Legal s → step s = .next t → t.st = .idle ∨ t.st = .signExtend →
    t.clock = false ∧ t.outputs.clockO = false

/-- The writers of each field: in a tick without reset a field of `S` changes only by the primitives that the "written by"
column of R20 names, by the abort of a failed pin access, by ReadyTimeout, or by CFG; and `bit_latch` by CLR too, which
R141 writes it in and the column does not name (log entry 20, DEDUCED). -/
def Obligations.FieldsChangeByTheirWritersOnly : Prop :=
  ∀ (s t : State) (i : Instr), s.inp.rst = false → s.stopped = false → decode (.seq s.seqWord) = .ok i →
    step s = .next t →
    (accessesPin s.params.readyMode i = true ∧ s.inp.pinFault = true) ∨
    ((t.raw = s.raw ∨ i = .clr ∨ i = .shin) ∧
      (t.bitLatch = s.bitLatch ∨ i = .samp ∨ i = .clr) ∧
      (t.sample = s.sample ∨ i = .sext) ∧
      (t.bitIdx = s.bitIdx ∨ i = .clr ∨ ∃ g l, i = .hold g l) ∧
      (t.pulseIdx = s.pulseIdx ∨ ∃ g l, i = .hold g l) ∧
      (t.holdCnt = s.holdCnt ∨ (∃ g, i = .seth g) ∨ (∃ g, i = .setl g) ∨ ∃ g l, i = .hold g l) ∧
      (t.readyCnt = s.readyCnt ∨ i = .latg ∨ i = .rdy) ∧
      (t.clock = s.clock ∨ (∃ g, i = .seth g) ∨ ∃ g, i = .setl g) ∧
      (t.nCur = s.nCur ∧ t.holdCur = s.holdCur ∧ t.timeoutCur = s.timeoutCur ∨ i = .latg) ∧
      (t.err = s.err ∨ i = .rdy ∧ t.err = .readyTimeout ∨ i = .emit ∧ t.err = .none) ∧
      (t.stopped = s.stopped ∨ i = .canc ∧ s.inp.cancel = true) ∧
      (t.cfgGain = s.cfgGain ∧ t.cfgHold = s.cfgHold ∧ t.cfgTimeout = s.cfgTimeout ∨ CfgAccepted s))

/-- The abort writes no more than R20's column says: `sample`, the latched configuration and `stopped` survive every tick
that aborts, and the configuration registers change only by an accepted CFG of the same tick (R220). -/
def Obligations.AbortKeepsSampleAndConfiguration : Prop :=
  ∀ (s t : State) (i : Instr), s.inp.rst = false → s.stopped = false → decode (.seq s.seqWord) = .ok i →
    step s = .next t → accessesPin s.params.readyMode i = true → s.inp.pinFault = true →
    t.sample = s.sample ∧ t.nCur = s.nCur ∧ t.holdCur = s.holdCur ∧ t.timeoutCur = s.timeoutCur ∧ t.stopped = s.stopped ∧
      (t.cfgGain = s.cfgGain ∧ t.cfgHold = s.cfgHold ∧ t.cfgTimeout = s.cfgTimeout ∨ CfgAccepted s)

/-- The output ports (R41): `clock_o`, `sample_o`, `err_o` and `stopped_o` show their field of `S` at all times, `err_o` with
the codes of R99; the three strobes are 1 exactly in their ticks (R166, R216, R220 to R222): `sample_valid_o` in the tick of
EMIT, `err_valid_o` in the tick a HardwareFault (code 1) or ReadyTimeout (code 2) is entered, `cfg_rej_o` in the tick a CFG
is rejected. Code 3 is never on `err_o` (R99). -/
def Obligations.StrobesMarkTheirTicks : Prop :=
  (∀ s : State, s.outputs =
    { clockO := s.clock, sampleO := s.sample, sampleValidO := s.sampleValid,
      errO := match s.err with | .none => 0 | .hardwareFault => 1 | .readyTimeout => 2 | .protocolViolation => 3,
      errValidO := s.errValid, cfgRejO := s.cfgRej, stoppedO := s.stopped }) ∧
  ∀ s t : State, Legal s → step s = .next t →
    (t.outputs.sampleValidO = true ↔ s.inp.rst = false ∧ s.stopped = false ∧ decode (.seq s.seqWord) = .ok .emit) ∧
    (t.outputs.sampleValidO = true → t.outputs.sampleO = s.sample ∧ t.outputs.errO = 0) ∧
    (t.outputs.errValidO = true ↔ s.inp.rst = false ∧ s.stopped = false ∧ ∃ i, decode (.seq s.seqWord) = .ok i ∧
      ((accessesPin s.params.readyMode i = true ∧ s.inp.pinFault = true ∧ t.outputs.errO = 1) ∨
        (i = .rdy ∧ s.params.readyMode = .poll ∧ s.inp.pinFault = false ∧ s.inp.data = true ∧
          s.timeoutCur.toNat ≤ s.readyCnt.toNat + 1 ∧ t.outputs.errO = 2))) ∧
    (s.inp.rst = false → s.stopped = false → ∀ i, decode (.seq s.seqWord) = .ok i →
      (accessesPin s.params.readyMode i = true → s.inp.pinFault = true →
        t.outputs.errO = 1 ∧ t.outputs.errValidO = true) ∧
      (i = .rdy → s.params.readyMode = .poll → s.inp.pinFault = false → s.inp.data = true →
        s.timeoutCur.toNat ≤ s.readyCnt.toNat + 1 → t.outputs.errO = 2 ∧ t.outputs.errValidO = true)) ∧
    (t.outputs.cfgRejO = true ↔ s.inp.rst = false ∧ CfgRejected s) ∧
    t.outputs.errO ≠ 3

/-- Cancellation stops the block only at the cycle boundary, with the clock low and no frame open (R185, R188, R264). -/
def Obligations.CancellationOnlyAtTheBoundary : Prop :=
  ∀ s t : State, Legal s → step s = .next t → s.stopped = false → t.stopped = true →
    s.st = .idle ∧ s.ph = 0 ∧ s.inp.cancel = true ∧ t.st = .idle ∧ t.ph = 0 ∧ t.clock = false ∧ t.holdCnt = 0 ∧
      t.conv = s.conv ∧ sequencerHistory t = sequencerHistory s ++ [.stop]

/-- The history only grows, by at most three events a tick, and no tick changes the parameters (R44, R80). -/
def Obligations.HistoryOnlyGrows : Prop :=
  ∀ s t : State, step s = .next t →
    (∃ new, t.history = s.history ++ new ∧ new.length ≤ 3) ∧ t.params = s.params

/-- Reset leaves a history that obeys the serial protocol with no frame open (R46, R80). -/
def Obligations.ResetHistoryIsLegal : Prop := ∀ p : Params, HistoryLegal (State.resetWith p)

/-- Every tick keeps the history within the serial protocol and in step with the state: pulses that never overlap, 24 data
slots with one read each, gain slots with none, 24 + N pulses before an Emit, the Emit the sign extension of the bits read
(R71, R123, R145, R162, R225, R261, R262). -/
def Obligations.StepKeepsHistoryLegal : Prop :=
  ∀ s t : State, Legal s → HistoryLegal s → step s = .next t → HistoryLegal t

/-- What a history that obeys the protocol says of every Emit (R225): since the last Reset, Emit or sequencer Err there are
exactly 24 reads, whose bits assemble to the raw value the sample extends, and equally many rising and falling edges, 25 to
27. `Err` of a rejected CFG is no boundary (log entry 18, DEDUCED). -/
def Obligations.EveryEmitFollowsItsFrame : Prop :=
  ∀ (h h' : List Event) (v : SignedSample), replay (h ++ .emit v :: h') ≠ none →
    ∃ before frame, h = before ++ frame ∧
      (before = [] ∨ ∃ b e, before = b ++ [e] ∧ boundary e = true) ∧ (∀ e ∈ frame, boundary e = false) ∧
      (frame.filterMap readBit).length = 24 ∧ v = signExtendRaw (assemble (frame.filterMap readBit)) ∧
      frame.count .ckHi = frame.count .ckLo ∧ 25 ≤ frame.count .ckHi ∧ frame.count .ckHi ≤ 27

/-! ## Composites: runs of many ticks -/

/-- PULSE in a gain slot (R123): SETH, HOLD, SETL, HOLD in `2 + 2h` ticks, one rising and one falling edge, each level held;
then the next gain slot or, after the `n_cur`-th, SignExtend with the converter's selection moved on (R43, log entry 10).
Nothing but CFG may add events in between. -/
def Obligations.PulseInAGainSlot : Prop :=
  ∀ s : State, Legal s → s.stopped = false → s.st = .gainSelect → s.ph = 0 → Quiet s (gainSlotTicks s.holdCur.toNat) →
    ∃ t, run (gainSlotTicks s.holdCur.toNat) s = .next t ∧
      sequencerHistory t = sequencerHistory s ++ pulseEvents s.holdCur ∧
      t.clock = false ∧ t.raw = s.raw ∧ t.sample = s.sample ∧ t.bitIdx = s.bitIdx ∧ t.nCur = s.nCur ∧
      t.holdCur = s.holdCur ∧ t.err = s.err ∧ t.stopped = false ∧
      (s.pulseIdx.toNat + 1 = s.nCur.toNat → t.st = .signExtend ∧ t.ph = 0 ∧ t.pulseIdx = s.pulseIdx ∧
        t.conv = s.conv.frameDone s.nCur) ∧
      (s.pulseIdx.toNat + 1 < s.nCur.toNat →
        t.st = .gainSelect ∧ t.ph = 0 ∧ t.pulseIdx.toNat = s.pulseIdx.toNat + 1 ∧ t.conv = s.conv)

/-- BITCYC (R144): one data slot in `4 + 2h` ticks: one rising and one falling edge, one read, the bit shifted in. -/
def Obligations.BitCycleInADataSlot : Prop :=
  ∀ (s : State) (b : Bool), Legal s → s.stopped = false → s.st = .pulseTrain → s.ph = 0 →
    Quiet s (dataSlotTicks s.holdCur.toNat) →
    (s.inputAt (sampleTick s.params.samplePoint s.holdCur.toNat)).data = b →
    ∃ t, run (dataSlotTicks s.holdCur.toNat) s = .next t ∧
      sequencerHistory t = sequencerHistory s ++ bitEvents s.params.samplePoint s.holdCur b ∧
      t.clock = false ∧ t.raw = shiftIn s.raw b ∧ t.bitLatch = b ∧ t.sample = s.sample ∧ t.nCur = s.nCur ∧
      t.holdCur = s.holdCur ∧ t.err = s.err ∧ t.stopped = false ∧ t.conv = s.conv ∧
      (s.bitIdx.toNat < 23 → t.st = .pulseTrain ∧ t.ph = 0 ∧ t.bitIdx.toNat = s.bitIdx.toNat + 1) ∧
      (s.bitIdx = 23 → t.st = .gainSelect ∧ t.ph = 0 ∧ t.bitIdx = 23 ∧ t.pulseIdx = 0)

/-- TRAIN (R145): 24 data slots that read the bits of `x`, most significant first, leave `raw = x`, whatever `raw` held
before (R21), with exactly one `Rd` and one pulse per bit; the place of `Rd` follows SAMPLE_POINT
(R142, log entry 7). -/
def Obligations.TrainAssemblesTheSample : Prop :=
  ∀ (s : State) (x : RawSample), Legal s → s.stopped = false → s.st = .pulseTrain → s.ph = 0 → s.bitIdx = 0 →
    Quiet s (24 * dataSlotTicks s.holdCur.toNat) →
    (∀ k < 24, (s.inputAt (k * dataSlotTicks s.holdCur.toNat +
      sampleTick s.params.samplePoint s.holdCur.toNat)).data = x.getLsbD (23 - k)) →
    ∃ t, run (24 * dataSlotTicks s.holdCur.toNat) s = .next t ∧
      sequencerHistory t = sequencerHistory s ++ (bitsOf x).flatMap (bitEvents s.params.samplePoint s.holdCur) ∧
      t.raw = x ∧ t.st = .gainSelect ∧ t.ph = 0 ∧ t.bitIdx = 23 ∧ t.pulseIdx = 0 ∧ t.clock = false ∧
      t.sample = s.sample ∧ t.nCur = s.nCur ∧ t.holdCur = s.holdCur ∧ t.conv = s.conv ∧ t.stopped = false

/-- GSEL (R161, R163): exactly `n_cur` pulses and no read in `n_cur * (2 + 2h)` ticks; `raw` stays; the converter, when no
frame was cut, was read under its old selection and will convert under `n_cur`, else under an open draw (log entry 10). -/
def Obligations.GainSelectIssuesNPulses : Prop :=
  ∀ s : State, Legal s → s.stopped = false → s.st = .gainSelect → s.ph = 0 → s.pulseIdx = 0 →
    Quiet s (s.nCur.toNat * gainSlotTicks s.holdCur.toNat) →
    ∃ t, run (s.nCur.toNat * gainSlotTicks s.holdCur.toNat) s = .next t ∧
      sequencerHistory t = sequencerHistory s ++ (List.replicate s.nCur.toNat (pulseEvents s.holdCur)).flatten ∧
      t.raw = s.raw ∧ t.st = .signExtend ∧ t.ph = 0 ∧ t.clock = false ∧ t.sample = s.sample ∧ t.nCur = s.nCur ∧
      t.holdCur = s.holdCur ∧ t.stopped = false ∧ t.conv = s.conv.frameDone s.nCur ∧
      (s.conv.synced = true → t.conv.readSel = s.conv.sel ∧ t.conv.sel = .pulses s.nCur ∧ t.conv.synced = true)

/-- WAITRDY that ends ready (R146): `p` polls within the timeout, the last one low, or the settle delay; then CLR. -/
def Obligations.WaitEndsReady : Prop :=
  ∀ (s : State) (p : Nat), Legal s → s.stopped = false → s.st = .idle → s.ph = 2 → s.readyCnt = 0 → Quiet s p →
    ReadyAfter s 0 p s.timeoutCur.toNat →
    ∃ t, run p s = .next t ∧ t.st = .idle ∧ t.ph = 3 ∧ t.clock = false ∧ t.raw = s.raw ∧ t.sample = s.sample ∧
      t.err = s.err ∧ t.conv = s.conv ∧ t.stopped = false ∧
      sequencerHistory t = sequencerHistory s ++ waitEvents s.params.readyMode p

/-- WAITRDY that times out (R146, R212, R221): `timeout_cur` high polls, then ReadyTimeout; the clock stays low, nothing is
sent, and the next tick is a new attempt. -/
def Obligations.WaitTimesOut : Prop :=
  ∀ s : State, Legal s → s.stopped = false → s.st = .idle → s.ph = 2 → s.readyCnt = 0 → s.params.readyMode = .poll →
    Quiet s s.timeoutCur.toNat → (∀ j < s.timeoutCur.toNat, (s.inputAt j).data = true) →
    ∃ t, run s.timeoutCur.toNat s = .next t ∧ t.st = .idle ∧ t.ph = 0 ∧ t.err = .readyTimeout ∧ t.errValid = true ∧
      t.readyCnt = 0 ∧ t.clock = false ∧ t.raw = s.raw ∧ t.sample = s.sample ∧ t.conv = s.conv ∧ t.stopped = false ∧
      sequencerHistory t =
        sequencerHistory s ++ List.replicate s.timeoutCur.toNat (.poll true) ++ [.err .readyTimeout]

/-- A wait is bounded (R146): from RDY, without reset, the sequencer has left RDY after at most `timeout_cur` ticks in poll
mode and `SETTLE_TICKS` in fixed_delay mode, whatever DATA, the pins and the host do. -/
def Obligations.WaitIsBounded : Prop :=
  ∀ (s : State) (n : Nat), Legal s → s.stopped = false → s.st = .idle → s.ph = 2 →
    n = waitLimit s →
    (∀ j < n, (s.inputAt j).rst = false) →
    ∃ k t, 1 ≤ k ∧ k ≤ n ∧ run k s = .next t ∧ t.clock = false ∧
      (t.st = .idle ∧ t.ph = 3 ∨ t.st = .idle ∧ t.ph = 0 ∧ (t.err = .readyTimeout ∨ t.err = .hardwareFault))

/-- CYCLE (R186): a cycle that is not cancelled, does not time out and does not fault, with `N`, `h` and the timeout the
configuration after CANC's tick and `p` ticks of waiting: exactly its events in exactly `101 + p + 48h + 2N(1 + h)` ticks,
the sample the sign extension of the 24 bits read, back at `(Idle, 0)` with the clock low and no error. When no frame was
cut, the sample was converted under the selection of the cycle before and the next one will be under `N` (R163); else the
next selection is an open draw (U1, log entry 10). The place of `Rd` follows SAMPLE_POINT (R142, log entry
7). -/
def Obligations.CompleteCycle : Prop :=
  ∀ (s u : State) (x : RawSample) (p : Nat), Legal s → s.stopped = false → s.st = .idle → s.ph = 0 →
    s.inp.cancel = false → step s = .next u →
    Quiet s (cycleTicks p u.cfgHold.toNat u.cfgGain.toNat) →
    ReadyAfter s 2 p u.cfgTimeout.toNat →
    (∀ k < 24, (s.inputAt (cycleSampleTick s.params.samplePoint p u.cfgHold.toNat k)).data = x.getLsbD (23 - k)) →
    ∃ t, run (cycleTicks p u.cfgHold.toNat u.cfgGain.toNat) s = .next t ∧
      sequencerHistory t = sequencerHistory s ++ waitEvents s.params.readyMode p ++
        (bitsOf x).flatMap (bitEvents s.params.samplePoint u.cfgHold) ++
        (List.replicate u.cfgGain.toNat (pulseEvents u.cfgHold)).flatten ++ [.emit (signExtendRaw x)] ∧
      t.sample = signExtendRaw x ∧ t.sampleValid = true ∧ t.err = .none ∧ t.clock = false ∧ t.st = .idle ∧ t.ph = 0 ∧
      t.stopped = false ∧ t.conv = s.conv.frameDone u.cfgGain ∧
      (s.conv.synced = true → t.conv.readSel = s.conv.sel ∧ t.conv.sel = .pulses u.cfgGain ∧ t.conv.synced = true)
end

