-- ==== Sys2Proof/Laws/State.lean ====
section
/-! SUPPORT. One lemma per field per update of the state, true by `rfl`, so that no proof unfolds a record update. -/

namespace Sys2Proof.Laws

open Sys2Proof.Machine

/-! ## record -/

@[simp] theorem record_raw (e : Event) (s : State) : (record e s).raw = s.raw := rfl
@[simp] theorem record_bitLatch (e : Event) (s : State) : (record e s).bitLatch = s.bitLatch := rfl
@[simp] theorem record_sample (e : Event) (s : State) : (record e s).sample = s.sample := rfl
@[simp] theorem record_st (e : Event) (s : State) : (record e s).st = s.st := rfl
@[simp] theorem record_ph (e : Event) (s : State) : (record e s).ph = s.ph := rfl
@[simp] theorem record_bitIdx (e : Event) (s : State) : (record e s).bitIdx = s.bitIdx := rfl
@[simp] theorem record_pulseIdx (e : Event) (s : State) : (record e s).pulseIdx = s.pulseIdx := rfl
@[simp] theorem record_holdCnt (e : Event) (s : State) : (record e s).holdCnt = s.holdCnt := rfl
@[simp] theorem record_readyCnt (e : Event) (s : State) : (record e s).readyCnt = s.readyCnt := rfl
@[simp] theorem record_clock (e : Event) (s : State) : (record e s).clock = s.clock := rfl
@[simp] theorem record_cfgGain (e : Event) (s : State) : (record e s).cfgGain = s.cfgGain := rfl
@[simp] theorem record_cfgHold (e : Event) (s : State) : (record e s).cfgHold = s.cfgHold := rfl
@[simp] theorem record_cfgTimeout (e : Event) (s : State) : (record e s).cfgTimeout = s.cfgTimeout := rfl
@[simp] theorem record_nCur (e : Event) (s : State) : (record e s).nCur = s.nCur := rfl
@[simp] theorem record_holdCur (e : Event) (s : State) : (record e s).holdCur = s.holdCur := rfl
@[simp] theorem record_timeoutCur (e : Event) (s : State) : (record e s).timeoutCur = s.timeoutCur := rfl
@[simp] theorem record_err (e : Event) (s : State) : (record e s).err = s.err := rfl
@[simp] theorem record_stopped (e : Event) (s : State) : (record e s).stopped = s.stopped := rfl
@[simp] theorem record_sampleValid (e : Event) (s : State) : (record e s).sampleValid = s.sampleValid := rfl
@[simp] theorem record_errValid (e : Event) (s : State) : (record e s).errValid = s.errValid := rfl
@[simp] theorem record_cfgRej (e : Event) (s : State) : (record e s).cfgRej = s.cfgRej := rfl
@[simp] theorem record_history (e : Event) (s : State) : (record e s).history = s.history ++ [e] := rfl
@[simp] theorem record_conv (e : Event) (s : State) : (record e s).conv = s.conv := rfl
@[simp] theorem record_pin (e : Event) (s : State) : (record e s).pin = s.pin := rfl
@[simp] theorem record_pinDraws (e : Event) (s : State) : (record e s).pinDraws = s.pinDraws := rfl
@[simp] theorem record_params (e : Event) (s : State) : (record e s).params = s.params := rfl
@[simp] theorem record_inp (e : Event) (s : State) : (record e s).inp = s.inp := rfl
@[simp] theorem record_script (e : Event) (s : State) : (record e s).script = s.script := rfl
@[simp] theorem record_tick (e : Event) (s : State) : (record e s).tick = s.tick := rfl

/-! ## goto -/

@[simp] theorem goto_raw (st : St) (ph : BitVec 3) (s : State) : (goto st ph s).raw = s.raw := rfl
@[simp] theorem goto_bitLatch (st : St) (ph : BitVec 3) (s : State) : (goto st ph s).bitLatch = s.bitLatch := rfl
@[simp] theorem goto_sample (st : St) (ph : BitVec 3) (s : State) : (goto st ph s).sample = s.sample := rfl
@[simp] theorem goto_st (st : St) (ph : BitVec 3) (s : State) : (goto st ph s).st = st := rfl
@[simp] theorem goto_ph (st : St) (ph : BitVec 3) (s : State) : (goto st ph s).ph = ph := rfl
@[simp] theorem goto_bitIdx (st : St) (ph : BitVec 3) (s : State) : (goto st ph s).bitIdx = s.bitIdx := rfl
@[simp] theorem goto_pulseIdx (st : St) (ph : BitVec 3) (s : State) : (goto st ph s).pulseIdx = s.pulseIdx := rfl
@[simp] theorem goto_holdCnt (st : St) (ph : BitVec 3) (s : State) : (goto st ph s).holdCnt = s.holdCnt := rfl
@[simp] theorem goto_readyCnt (st : St) (ph : BitVec 3) (s : State) : (goto st ph s).readyCnt = s.readyCnt := rfl
@[simp] theorem goto_clock (st : St) (ph : BitVec 3) (s : State) : (goto st ph s).clock = s.clock := rfl
@[simp] theorem goto_cfgGain (st : St) (ph : BitVec 3) (s : State) : (goto st ph s).cfgGain = s.cfgGain := rfl
@[simp] theorem goto_cfgHold (st : St) (ph : BitVec 3) (s : State) : (goto st ph s).cfgHold = s.cfgHold := rfl
@[simp] theorem goto_cfgTimeout (st : St) (ph : BitVec 3) (s : State) : (goto st ph s).cfgTimeout = s.cfgTimeout := rfl
@[simp] theorem goto_nCur (st : St) (ph : BitVec 3) (s : State) : (goto st ph s).nCur = s.nCur := rfl
@[simp] theorem goto_holdCur (st : St) (ph : BitVec 3) (s : State) : (goto st ph s).holdCur = s.holdCur := rfl
@[simp] theorem goto_timeoutCur (st : St) (ph : BitVec 3) (s : State) : (goto st ph s).timeoutCur = s.timeoutCur := rfl
@[simp] theorem goto_err (st : St) (ph : BitVec 3) (s : State) : (goto st ph s).err = s.err := rfl
@[simp] theorem goto_stopped (st : St) (ph : BitVec 3) (s : State) : (goto st ph s).stopped = s.stopped := rfl
@[simp] theorem goto_sampleValid (st : St) (ph : BitVec 3) (s : State) : (goto st ph s).sampleValid = s.sampleValid := rfl
@[simp] theorem goto_errValid (st : St) (ph : BitVec 3) (s : State) : (goto st ph s).errValid = s.errValid := rfl
@[simp] theorem goto_cfgRej (st : St) (ph : BitVec 3) (s : State) : (goto st ph s).cfgRej = s.cfgRej := rfl
@[simp] theorem goto_history (st : St) (ph : BitVec 3) (s : State) : (goto st ph s).history = s.history := rfl
@[simp] theorem goto_conv (st : St) (ph : BitVec 3) (s : State) : (goto st ph s).conv = s.conv := rfl
@[simp] theorem goto_pin (st : St) (ph : BitVec 3) (s : State) : (goto st ph s).pin = s.pin := rfl
@[simp] theorem goto_pinDraws (st : St) (ph : BitVec 3) (s : State) : (goto st ph s).pinDraws = s.pinDraws := rfl
@[simp] theorem goto_params (st : St) (ph : BitVec 3) (s : State) : (goto st ph s).params = s.params := rfl
@[simp] theorem goto_inp (st : St) (ph : BitVec 3) (s : State) : (goto st ph s).inp = s.inp := rfl
@[simp] theorem goto_script (st : St) (ph : BitVec 3) (s : State) : (goto st ph s).script = s.script := rfl
@[simp] theorem goto_tick (st : St) (ph : BitVec 3) (s : State) : (goto st ph s).tick = s.tick := rfl

/-! ## beginTick -/

@[simp] theorem beginTick_raw (s : State) : (beginTick s).raw = s.raw := rfl
@[simp] theorem beginTick_bitLatch (s : State) : (beginTick s).bitLatch = s.bitLatch := rfl
@[simp] theorem beginTick_sample (s : State) : (beginTick s).sample = s.sample := rfl
@[simp] theorem beginTick_st (s : State) : (beginTick s).st = s.st := rfl
@[simp] theorem beginTick_ph (s : State) : (beginTick s).ph = s.ph := rfl
@[simp] theorem beginTick_bitIdx (s : State) : (beginTick s).bitIdx = s.bitIdx := rfl
@[simp] theorem beginTick_pulseIdx (s : State) : (beginTick s).pulseIdx = s.pulseIdx := rfl
@[simp] theorem beginTick_holdCnt (s : State) : (beginTick s).holdCnt = s.holdCnt := rfl
@[simp] theorem beginTick_readyCnt (s : State) : (beginTick s).readyCnt = s.readyCnt := rfl
@[simp] theorem beginTick_clock (s : State) : (beginTick s).clock = s.clock := rfl
@[simp] theorem beginTick_cfgGain (s : State) : (beginTick s).cfgGain = s.cfgGain := rfl
@[simp] theorem beginTick_cfgHold (s : State) : (beginTick s).cfgHold = s.cfgHold := rfl
@[simp] theorem beginTick_cfgTimeout (s : State) : (beginTick s).cfgTimeout = s.cfgTimeout := rfl
@[simp] theorem beginTick_nCur (s : State) : (beginTick s).nCur = s.nCur := rfl
@[simp] theorem beginTick_holdCur (s : State) : (beginTick s).holdCur = s.holdCur := rfl
@[simp] theorem beginTick_timeoutCur (s : State) : (beginTick s).timeoutCur = s.timeoutCur := rfl
@[simp] theorem beginTick_err (s : State) : (beginTick s).err = s.err := rfl
@[simp] theorem beginTick_stopped (s : State) : (beginTick s).stopped = s.stopped := rfl
@[simp] theorem beginTick_sampleValid (s : State) : (beginTick s).sampleValid = false := rfl
@[simp] theorem beginTick_errValid (s : State) : (beginTick s).errValid = false := rfl
@[simp] theorem beginTick_cfgRej (s : State) : (beginTick s).cfgRej = false := rfl
@[simp] theorem beginTick_history (s : State) : (beginTick s).history = s.history := rfl
@[simp] theorem beginTick_conv (s : State) : (beginTick s).conv = s.conv := rfl
@[simp] theorem beginTick_pin (s : State) : (beginTick s).pin = s.pin := rfl
@[simp] theorem beginTick_pinDraws (s : State) : (beginTick s).pinDraws = s.pinDraws := rfl
@[simp] theorem beginTick_params (s : State) : (beginTick s).params = s.params := rfl
@[simp] theorem beginTick_inp (s : State) : (beginTick s).inp = s.inp := rfl
@[simp] theorem beginTick_script (s : State) : (beginTick s).script = s.script := rfl
@[simp] theorem beginTick_tick (s : State) : (beginTick s).tick = s.tick := rfl

/-! ## endTick -/

@[simp] theorem endTick_raw (s : State) : (endTick s).raw = s.raw := rfl
@[simp] theorem endTick_bitLatch (s : State) : (endTick s).bitLatch = s.bitLatch := rfl
@[simp] theorem endTick_sample (s : State) : (endTick s).sample = s.sample := rfl
@[simp] theorem endTick_st (s : State) : (endTick s).st = s.st := rfl
@[simp] theorem endTick_ph (s : State) : (endTick s).ph = s.ph := rfl
@[simp] theorem endTick_bitIdx (s : State) : (endTick s).bitIdx = s.bitIdx := rfl
@[simp] theorem endTick_pulseIdx (s : State) : (endTick s).pulseIdx = s.pulseIdx := rfl
@[simp] theorem endTick_holdCnt (s : State) : (endTick s).holdCnt = s.holdCnt := rfl
@[simp] theorem endTick_readyCnt (s : State) : (endTick s).readyCnt = s.readyCnt := rfl
@[simp] theorem endTick_clock (s : State) : (endTick s).clock = s.clock := rfl
@[simp] theorem endTick_cfgGain (s : State) : (endTick s).cfgGain = s.cfgGain := rfl
@[simp] theorem endTick_cfgHold (s : State) : (endTick s).cfgHold = s.cfgHold := rfl
@[simp] theorem endTick_cfgTimeout (s : State) : (endTick s).cfgTimeout = s.cfgTimeout := rfl
@[simp] theorem endTick_nCur (s : State) : (endTick s).nCur = s.nCur := rfl
@[simp] theorem endTick_holdCur (s : State) : (endTick s).holdCur = s.holdCur := rfl
@[simp] theorem endTick_timeoutCur (s : State) : (endTick s).timeoutCur = s.timeoutCur := rfl
@[simp] theorem endTick_err (s : State) : (endTick s).err = s.err := rfl
@[simp] theorem endTick_stopped (s : State) : (endTick s).stopped = s.stopped := rfl
@[simp] theorem endTick_sampleValid (s : State) : (endTick s).sampleValid = s.sampleValid := rfl
@[simp] theorem endTick_errValid (s : State) : (endTick s).errValid = s.errValid := rfl
@[simp] theorem endTick_cfgRej (s : State) : (endTick s).cfgRej = s.cfgRej := rfl
@[simp] theorem endTick_history (s : State) : (endTick s).history = s.history := rfl
@[simp] theorem endTick_conv (s : State) : (endTick s).conv = s.conv := rfl
@[simp] theorem endTick_pin (s : State) : (endTick s).pin = s.pin := rfl
@[simp] theorem endTick_pinDraws (s : State) : (endTick s).pinDraws = s.pinDraws := rfl
@[simp] theorem endTick_params (s : State) : (endTick s).params = s.params := rfl
@[simp] theorem endTick_inp (s : State) : (endTick s).inp = s.inputAt 1 := rfl
@[simp] theorem endTick_script (s : State) : (endTick s).script = s.script.tail := rfl
@[simp] theorem endTick_tick (s : State) : (endTick s).tick = s.tick + 1 := rfl

/-! ## enterHardwareFault -/

@[simp] theorem enterHardwareFault_raw (s : State) : (enterHardwareFault s).raw = 0 := rfl
@[simp] theorem enterHardwareFault_bitLatch (s : State) : (enterHardwareFault s).bitLatch = false := rfl
@[simp] theorem enterHardwareFault_sample (s : State) : (enterHardwareFault s).sample = s.sample := rfl
@[simp] theorem enterHardwareFault_st (s : State) : (enterHardwareFault s).st = .idle := rfl
@[simp] theorem enterHardwareFault_ph (s : State) : (enterHardwareFault s).ph = 0 := rfl
@[simp] theorem enterHardwareFault_bitIdx (s : State) : (enterHardwareFault s).bitIdx = 0 := rfl
@[simp] theorem enterHardwareFault_pulseIdx (s : State) : (enterHardwareFault s).pulseIdx = 0 := rfl
@[simp] theorem enterHardwareFault_holdCnt (s : State) : (enterHardwareFault s).holdCnt = 0 := rfl
@[simp] theorem enterHardwareFault_readyCnt (s : State) : (enterHardwareFault s).readyCnt = 0 := rfl
@[simp] theorem enterHardwareFault_clock (s : State) : (enterHardwareFault s).clock = false := rfl
@[simp] theorem enterHardwareFault_cfgGain (s : State) : (enterHardwareFault s).cfgGain = s.cfgGain := rfl
@[simp] theorem enterHardwareFault_cfgHold (s : State) : (enterHardwareFault s).cfgHold = s.cfgHold := rfl
@[simp] theorem enterHardwareFault_cfgTimeout (s : State) : (enterHardwareFault s).cfgTimeout = s.cfgTimeout := rfl
@[simp] theorem enterHardwareFault_nCur (s : State) : (enterHardwareFault s).nCur = s.nCur := rfl
@[simp] theorem enterHardwareFault_holdCur (s : State) : (enterHardwareFault s).holdCur = s.holdCur := rfl
@[simp] theorem enterHardwareFault_timeoutCur (s : State) : (enterHardwareFault s).timeoutCur = s.timeoutCur := rfl
@[simp] theorem enterHardwareFault_err (s : State) : (enterHardwareFault s).err = .hardwareFault := rfl
@[simp] theorem enterHardwareFault_stopped (s : State) : (enterHardwareFault s).stopped = s.stopped := rfl
@[simp] theorem enterHardwareFault_sampleValid (s : State) : (enterHardwareFault s).sampleValid = s.sampleValid := rfl
@[simp] theorem enterHardwareFault_errValid (s : State) : (enterHardwareFault s).errValid = true := rfl
@[simp] theorem enterHardwareFault_cfgRej (s : State) : (enterHardwareFault s).cfgRej = s.cfgRej := rfl
@[simp] theorem enterHardwareFault_history (s : State) : (enterHardwareFault s).history = s.history ++ [.ckForceLo, .err .hardwareFault] := rfl
@[simp] theorem enterHardwareFault_conv (s : State) : (enterHardwareFault s).conv = cutOpenFrame s := rfl
@[simp] theorem enterHardwareFault_pin (s : State) : (enterHardwareFault s).pin = .free s.pinDraws := rfl
@[simp] theorem enterHardwareFault_pinDraws (s : State) : (enterHardwareFault s).pinDraws = s.pinDraws + 1 := rfl
@[simp] theorem enterHardwareFault_params (s : State) : (enterHardwareFault s).params = s.params := rfl
@[simp] theorem enterHardwareFault_inp (s : State) : (enterHardwareFault s).inp = s.inp := rfl
@[simp] theorem enterHardwareFault_script (s : State) : (enterHardwareFault s).script = s.script := rfl
@[simp] theorem enterHardwareFault_tick (s : State) : (enterHardwareFault s).tick = s.tick := rfl

/-! ## enterReadyTimeout -/

@[simp] theorem enterReadyTimeout_raw (s : State) : (enterReadyTimeout s).raw = s.raw := rfl
@[simp] theorem enterReadyTimeout_bitLatch (s : State) : (enterReadyTimeout s).bitLatch = s.bitLatch := rfl
@[simp] theorem enterReadyTimeout_sample (s : State) : (enterReadyTimeout s).sample = s.sample := rfl
@[simp] theorem enterReadyTimeout_st (s : State) : (enterReadyTimeout s).st = .idle := rfl
@[simp] theorem enterReadyTimeout_ph (s : State) : (enterReadyTimeout s).ph = 0 := rfl
@[simp] theorem enterReadyTimeout_bitIdx (s : State) : (enterReadyTimeout s).bitIdx = s.bitIdx := rfl
@[simp] theorem enterReadyTimeout_pulseIdx (s : State) : (enterReadyTimeout s).pulseIdx = s.pulseIdx := rfl
@[simp] theorem enterReadyTimeout_holdCnt (s : State) : (enterReadyTimeout s).holdCnt = s.holdCnt := rfl
@[simp] theorem enterReadyTimeout_readyCnt (s : State) : (enterReadyTimeout s).readyCnt = 0 := rfl
@[simp] theorem enterReadyTimeout_clock (s : State) : (enterReadyTimeout s).clock = s.clock := rfl
@[simp] theorem enterReadyTimeout_cfgGain (s : State) : (enterReadyTimeout s).cfgGain = s.cfgGain := rfl
@[simp] theorem enterReadyTimeout_cfgHold (s : State) : (enterReadyTimeout s).cfgHold = s.cfgHold := rfl
@[simp] theorem enterReadyTimeout_cfgTimeout (s : State) : (enterReadyTimeout s).cfgTimeout = s.cfgTimeout := rfl
@[simp] theorem enterReadyTimeout_nCur (s : State) : (enterReadyTimeout s).nCur = s.nCur := rfl
@[simp] theorem enterReadyTimeout_holdCur (s : State) : (enterReadyTimeout s).holdCur = s.holdCur := rfl
@[simp] theorem enterReadyTimeout_timeoutCur (s : State) : (enterReadyTimeout s).timeoutCur = s.timeoutCur := rfl
@[simp] theorem enterReadyTimeout_err (s : State) : (enterReadyTimeout s).err = .readyTimeout := rfl
@[simp] theorem enterReadyTimeout_stopped (s : State) : (enterReadyTimeout s).stopped = s.stopped := rfl
@[simp] theorem enterReadyTimeout_sampleValid (s : State) : (enterReadyTimeout s).sampleValid = s.sampleValid := rfl
@[simp] theorem enterReadyTimeout_errValid (s : State) : (enterReadyTimeout s).errValid = true := rfl
@[simp] theorem enterReadyTimeout_cfgRej (s : State) : (enterReadyTimeout s).cfgRej = s.cfgRej := rfl
@[simp] theorem enterReadyTimeout_history (s : State) : (enterReadyTimeout s).history = s.history ++ [.err .readyTimeout] := rfl
@[simp] theorem enterReadyTimeout_conv (s : State) : (enterReadyTimeout s).conv = s.conv := rfl
@[simp] theorem enterReadyTimeout_pin (s : State) : (enterReadyTimeout s).pin = s.pin := rfl
@[simp] theorem enterReadyTimeout_pinDraws (s : State) : (enterReadyTimeout s).pinDraws = s.pinDraws := rfl
@[simp] theorem enterReadyTimeout_params (s : State) : (enterReadyTimeout s).params = s.params := rfl
@[simp] theorem enterReadyTimeout_inp (s : State) : (enterReadyTimeout s).inp = s.inp := rfl
@[simp] theorem enterReadyTimeout_script (s : State) : (enterReadyTimeout s).script = s.script := rfl
@[simp] theorem enterReadyTimeout_tick (s : State) : (enterReadyTimeout s).tick = s.tick := rfl

/-! ## enterProtocolViolation -/

@[simp] theorem enterProtocolViolation_raw (s : State) : (enterProtocolViolation s).raw = s.raw := rfl
@[simp] theorem enterProtocolViolation_bitLatch (s : State) : (enterProtocolViolation s).bitLatch = s.bitLatch := rfl
@[simp] theorem enterProtocolViolation_sample (s : State) : (enterProtocolViolation s).sample = s.sample := rfl
@[simp] theorem enterProtocolViolation_st (s : State) : (enterProtocolViolation s).st = s.st := rfl
@[simp] theorem enterProtocolViolation_ph (s : State) : (enterProtocolViolation s).ph = s.ph := rfl
@[simp] theorem enterProtocolViolation_bitIdx (s : State) : (enterProtocolViolation s).bitIdx = s.bitIdx := rfl
@[simp] theorem enterProtocolViolation_pulseIdx (s : State) : (enterProtocolViolation s).pulseIdx = s.pulseIdx := rfl
@[simp] theorem enterProtocolViolation_holdCnt (s : State) : (enterProtocolViolation s).holdCnt = s.holdCnt := rfl
@[simp] theorem enterProtocolViolation_readyCnt (s : State) : (enterProtocolViolation s).readyCnt = s.readyCnt := rfl
@[simp] theorem enterProtocolViolation_clock (s : State) : (enterProtocolViolation s).clock = s.clock := rfl
@[simp] theorem enterProtocolViolation_cfgGain (s : State) : (enterProtocolViolation s).cfgGain = s.cfgGain := rfl
@[simp] theorem enterProtocolViolation_cfgHold (s : State) : (enterProtocolViolation s).cfgHold = s.cfgHold := rfl
@[simp] theorem enterProtocolViolation_cfgTimeout (s : State) : (enterProtocolViolation s).cfgTimeout = s.cfgTimeout := rfl
@[simp] theorem enterProtocolViolation_nCur (s : State) : (enterProtocolViolation s).nCur = s.nCur := rfl
@[simp] theorem enterProtocolViolation_holdCur (s : State) : (enterProtocolViolation s).holdCur = s.holdCur := rfl
@[simp] theorem enterProtocolViolation_timeoutCur (s : State) : (enterProtocolViolation s).timeoutCur = s.timeoutCur := rfl
@[simp] theorem enterProtocolViolation_err (s : State) : (enterProtocolViolation s).err = s.err := rfl
@[simp] theorem enterProtocolViolation_stopped (s : State) : (enterProtocolViolation s).stopped = s.stopped := rfl
@[simp] theorem enterProtocolViolation_sampleValid (s : State) : (enterProtocolViolation s).sampleValid = s.sampleValid := rfl
@[simp] theorem enterProtocolViolation_errValid (s : State) : (enterProtocolViolation s).errValid = s.errValid := rfl
@[simp] theorem enterProtocolViolation_cfgRej (s : State) : (enterProtocolViolation s).cfgRej = true := rfl
@[simp] theorem enterProtocolViolation_history (s : State) : (enterProtocolViolation s).history = s.history ++ [.err .protocolViolation] := rfl
@[simp] theorem enterProtocolViolation_conv (s : State) : (enterProtocolViolation s).conv = s.conv := rfl
@[simp] theorem enterProtocolViolation_pin (s : State) : (enterProtocolViolation s).pin = s.pin := rfl
@[simp] theorem enterProtocolViolation_pinDraws (s : State) : (enterProtocolViolation s).pinDraws = s.pinDraws := rfl
@[simp] theorem enterProtocolViolation_params (s : State) : (enterProtocolViolation s).params = s.params := rfl
@[simp] theorem enterProtocolViolation_inp (s : State) : (enterProtocolViolation s).inp = s.inp := rfl
@[simp] theorem enterProtocolViolation_script (s : State) : (enterProtocolViolation s).script = s.script := rfl
@[simp] theorem enterProtocolViolation_tick (s : State) : (enterProtocolViolation s).tick = s.tick := rfl

/-! ## applyReset -/

@[simp] theorem applyReset_raw (s : State) : (applyReset s).raw = 0 := rfl
@[simp] theorem applyReset_bitLatch (s : State) : (applyReset s).bitLatch = false := rfl
@[simp] theorem applyReset_sample (s : State) : (applyReset s).sample = 0 := rfl
@[simp] theorem applyReset_st (s : State) : (applyReset s).st = .idle := rfl
@[simp] theorem applyReset_ph (s : State) : (applyReset s).ph = 0 := rfl
@[simp] theorem applyReset_bitIdx (s : State) : (applyReset s).bitIdx = 0 := rfl
@[simp] theorem applyReset_pulseIdx (s : State) : (applyReset s).pulseIdx = 0 := rfl
@[simp] theorem applyReset_holdCnt (s : State) : (applyReset s).holdCnt = 0 := rfl
@[simp] theorem applyReset_readyCnt (s : State) : (applyReset s).readyCnt = 0 := rfl
@[simp] theorem applyReset_clock (s : State) : (applyReset s).clock = false := rfl
@[simp] theorem applyReset_cfgGain (s : State) : (applyReset s).cfgGain = 1 := rfl
@[simp] theorem applyReset_cfgHold (s : State) : (applyReset s).cfgHold = s.params.holdReset := rfl
@[simp] theorem applyReset_cfgTimeout (s : State) : (applyReset s).cfgTimeout = s.params.readyTimeoutReset := rfl
@[simp] theorem applyReset_nCur (s : State) : (applyReset s).nCur = 1 := rfl
@[simp] theorem applyReset_holdCur (s : State) : (applyReset s).holdCur = s.params.holdReset := rfl
@[simp] theorem applyReset_timeoutCur (s : State) : (applyReset s).timeoutCur = s.params.readyTimeoutReset := rfl
@[simp] theorem applyReset_err (s : State) : (applyReset s).err = .none := rfl
@[simp] theorem applyReset_stopped (s : State) : (applyReset s).stopped = false := rfl
@[simp] theorem applyReset_sampleValid (s : State) : (applyReset s).sampleValid = false := rfl
@[simp] theorem applyReset_errValid (s : State) : (applyReset s).errValid = false := rfl
@[simp] theorem applyReset_cfgRej (s : State) : (applyReset s).cfgRej = false := rfl
@[simp] theorem applyReset_history (s : State) : (applyReset s).history = s.history ++ [.reset] := rfl
@[simp] theorem applyReset_conv (s : State) : (applyReset s).conv = cutOpenFrame s := rfl
@[simp] theorem applyReset_pin (s : State) : (applyReset s).pin = s.pin.reset := rfl
@[simp] theorem applyReset_pinDraws (s : State) : (applyReset s).pinDraws = s.pinDraws := rfl
@[simp] theorem applyReset_params (s : State) : (applyReset s).params = s.params := rfl
@[simp] theorem applyReset_inp (s : State) : (applyReset s).inp = s.inp := rfl
@[simp] theorem applyReset_script (s : State) : (applyReset s).script = s.script := rfl
@[simp] theorem applyReset_tick (s : State) : (applyReset s).tick = s.tick := rfl

/-! ## The output ports and the environment's ghosts -/

@[simp] theorem outputs_clockO (s : State) : s.outputs.clockO = s.clock := rfl
@[simp] theorem outputs_sampleO (s : State) : s.outputs.sampleO = s.sample := rfl
@[simp] theorem outputs_sampleValidO (s : State) : s.outputs.sampleValidO = s.sampleValid := rfl
@[simp] theorem outputs_errO (s : State) : s.outputs.errO = s.err.code := rfl
@[simp] theorem outputs_errValidO (s : State) : s.outputs.errValidO = s.errValid := rfl
@[simp] theorem outputs_cfgRejO (s : State) : s.outputs.cfgRejO = s.cfgRej := rfl
@[simp] theorem outputs_stoppedO (s : State) : s.outputs.stoppedO = s.stopped := rfl

@[simp] theorem code_none : ErrCode.none.code = 0 := rfl
@[simp] theorem code_hardwareFault : ErrCode.hardwareFault.code = 1 := rfl
@[simp] theorem code_readyTimeout : ErrCode.readyTimeout.code = 2 := rfl
@[simp] theorem code_protocolViolation : ErrCode.protocolViolation.code = 3 := rfl

@[simp] theorem cut_sel (c : Converter) : c.cut.sel = .free c.draws := rfl
@[simp] theorem cut_readSel (c : Converter) : c.cut.readSel = c.readSel := rfl
@[simp] theorem cut_synced (c : Converter) : c.cut.synced = false := rfl
@[simp] theorem cut_draws (c : Converter) : c.cut.draws = c.draws + 1 := rfl

@[simp] theorem cutOpenFrame_beginTick (s : State) : cutOpenFrame (beginTick s) = cutOpenFrame s := rfl

@[simp] theorem reset_driven (v : Bool) : (PinLevel.driven v).reset = .driven false := rfl
@[simp] theorem reset_free (k : Nat) : (PinLevel.free k).reset = .free k := rfl

end Sys2Proof.Laws
end

