-- ==== Sys2Proof/Laws/Ops.lean ====
section
/-! SUPPORT. One lemma per shared operation that says what it can do. -/

namespace Sys2Proof.Laws

open Sys2Proof.Machine

/-! ## Outcomes -/

@[simp] theorem andThen_next (s : State) (f : State → Host.Outcome State Fault Refusal) : andThen (.next s) f = f s := rfl

theorem andThen_eq_next {o : Host.Outcome State Fault Refusal} {f : State → Host.Outcome State Fault Refusal} {t : State}
    (h : andThen o f = .next t) : ∃ s, o = .next s ∧ f s = .next t := by
  cases o with
  | next s => exact ⟨s, rfl, h⟩
  | fault r => cases h
  | refused r => cases h

/-! ## The converter and the host's read -/

theorem frameDone_synced {c : Converter} (n : GainCode) (h : c.synced = true) :
    c.frameDone n = { c with readSel := c.sel, sel := .pulses n } := if_pos h

theorem frameDone_cut {c : Converter} (n : GainCode) (h : c.synced = false) :
    c.frameDone n = { c with readSel := c.sel, sel := .free c.draws, draws := c.draws + 1 } := by
  simp [Converter.frameDone, h]

theorem cutOpenFrame_open {s : State} (h : s.st.pulsing = true) : cutOpenFrame s = s.conv.cut := if_pos h

theorem cutOpenFrame_closed {s : State} (h : s.st.pulsing = false) : cutOpenFrame s = s.conv := by
  simp [cutOpenFrame, h]

theorem delivered_append (h : List Event) (e : Event) :
    delivered (h ++ [e]) = match e with
      | .reset => false
      | .emit _ => true
      | _ => delivered h := by
  cases e <;> simp [delivered]

/-! ## Pins -/

theorem pinRead_ok {s : State} (h : s.inp.pinFault = false) : pinRead s = some s.inp.data := by simp [pinRead, h]

theorem pinRead_fault {s : State} (h : s.inp.pinFault = true) : pinRead s = none := by simp [pinRead, h]

theorem pinWrite_ok {s : State} (v : Bool) (h : s.inp.pinFault = false) :
    pinWrite v s = some { s with clock := v, pin := .driven v } := by simp [pinWrite, h]

theorem pinWrite_fault {s : State} (v : Bool) (h : s.inp.pinFault = true) : pinWrite v s = none := by simp [pinWrite, h]

theorem driveClock_ok {s : State} (v : Bool) (e : Event) (g : Slot) (ph : BitVec 3) (h : s.inp.pinFault = false) :
    driveClock v e g ph s = .next { s with
      clock := v, pin := .driven v, holdCnt := s.holdCur, history := s.history ++ [e], st := g.st, ph := ph } := by
  simp [driveClock, pinWrite_ok v h, record, goto]

theorem driveClock_fault {s : State} (v : Bool) (e : Event) (g : Slot) (ph : BitVec 3) (h : s.inp.pinFault = true) :
    driveClock v e g ph s = .next (enterHardwareFault s) := by simp [driveClock, pinWrite_fault v h, raise]

/-! ## The wait for ready -/

theorem pollReady_fault {s : State} (h : s.inp.pinFault = true) : pollReady s = .next (enterHardwareFault s) := by
  simp [pollReady, pinRead_fault h, raise]

theorem pollReady_ready {s : State} (h : s.inp.pinFault = false) (hd : s.inp.data = false) :
    pollReady s = .next { s with history := s.history ++ [.poll false], st := .idle, ph := 3 } := by
  simp [pollReady, pinRead_ok h, hd, record, goto]

theorem pollReady_wait {s : State} (h : s.inp.pinFault = false) (hd : s.inp.data = true)
    (hc : s.readyCnt.toNat + 1 < s.timeoutCur.toNat) :
    pollReady s = .next { s with
      history := s.history ++ [.poll true], readyCnt := BitVec.ofNat 32 (s.readyCnt.toNat + 1) } := by
  have hw : waitExpired s.readyCnt s.timeoutCur = false := decide_eq_false (by simp only [nextReadyCount]; omega)
  simp [pollReady, pinRead_ok h, hd, hw, record, nextReadyCount]

theorem pollReady_timeout {s : State} (h : s.inp.pinFault = false) (hd : s.inp.data = true)
    (hc : s.timeoutCur.toNat ≤ s.readyCnt.toNat + 1) :
    pollReady s = .next (enterReadyTimeout { s with history := s.history ++ [.poll true] }) := by
  have hw : waitExpired s.readyCnt s.timeoutCur = true := decide_eq_true (by simp only [nextReadyCount]; omega)
  simp [pollReady, pinRead_ok h, hd, hw, raise, record]

theorem settle_over {s : State} (hc : s.params.settleTicks ≤ s.readyCnt.toNat + 1) :
    settle s = .next { s with st := .idle, ph := 3 } := by
  have hw : settleOver s.readyCnt s.params.settleTicks = true := decide_eq_true (by simp only [nextReadyCount]; omega)
  simp [settle, hw, goto]

theorem settle_wait {s : State} (hc : s.readyCnt.toNat + 1 < s.params.settleTicks) :
    settle s = .next { s with readyCnt := BitVec.ofNat 32 (s.readyCnt.toNat + 1) } := by
  have hw : settleOver s.readyCnt s.params.settleTicks = false := decide_eq_false (by simp only [nextReadyCount]; omega)
  simp [settle, hw, nextReadyCount]

theorem execRdy_poll {s : State} (h : s.params.readyMode = .poll) : execRdy s = pollReady s := by simp [execRdy, h]

theorem execRdy_fixedDelay {s : State} (h : s.params.readyMode = .fixedDelay) : execRdy s = settle s := by
  simp [execRdy, h]

/-! ## SAMP, HOLD -/

theorem execSamp_ok {s : State} (h : s.inp.pinFault = false) :
    execSamp s = .next { s with
      bitLatch := s.inp.data, history := s.history ++ [.rd s.inp.data], st := .pulseTrain,
      ph := phaseAfterSamp s.params.samplePoint } := by
  simp [execSamp, pinRead_ok h, record, goto]

theorem execSamp_fault {s : State} (h : s.inp.pinFault = true) : execSamp s = .next (enterHardwareFault s) := by
  simp [execSamp, pinRead_fault h, raise]

theorem execHold_refused {s : State} (g : Slot) (l : HoldHalf) (h : s.holdCnt = 0) :
    execHold g l s = .refused .holdCounterZero := by simp [execHold, h]

theorem execHold_running {s : State} (g : Slot) (l : HoldHalf) (h : 1 < s.holdCnt.toNat) :
    execHold g l s = .next { s with holdCnt := s.holdCnt - 1 } := by
  have h0 : s.holdCnt ≠ 0 := by intro h'; simp [h'] at h
  have h1 : s.holdCnt - 1 ≠ 0 := by
    intro h'; have := congrArg BitVec.toNat h'; simp at this; omega
  simp only [execHold, if_neg h0, if_neg h1]

theorem execHold_last {s : State} (g : Slot) (l : HoldHalf) (h : s.holdCnt = 1) :
    execHold g l s = .next (nextAfterHold g l { s with holdCnt := 0, history := s.history ++ [.hold s.holdCur] }) := by
  simp [execHold, h, record]

/-! ## The successor of a HOLD -/

theorem endDataSlot_last {s : State} (h : s.bitIdx = 23) :
    endDataSlot s = { s with pulseIdx := 0, st := .gainSelect, ph := 0 } := if_pos h

theorem endDataSlot_next {s : State} (h : s.bitIdx ≠ 23) :
    endDataSlot s = { s with bitIdx := s.bitIdx + 1, st := .pulseTrain, ph := 0 } := if_neg h

theorem endGainSlot_last {s : State} (h : s.pulseIdx.toNat + 1 = s.nCur.toNat) :
    endGainSlot s = { s with conv := s.conv.frameDone s.nCur, st := .signExtend, ph := 0 } := if_pos h

theorem endGainSlot_next {s : State} (h : s.pulseIdx.toNat + 1 ≠ s.nCur.toNat) :
    endGainSlot s = { s with pulseIdx := s.pulseIdx + 1, st := .gainSelect, ph := 0 } := if_neg h

/-! ## Configuration -/

theorem writeConfig_legal {s : State} {g : GainCode} {h : HoldTicks} {t : ReadyTicks} (hl : legalConfig g h t = true) :
    writeConfig g h t s = { s with
      cfgGain := g, cfgHold := h, cfgTimeout := t, history := s.history ++ [.cfgOk g h t] } := by
  simp [writeConfig, hl, record]

theorem writeConfig_illegal {s : State} {g : GainCode} {h : HoldTicks} {t : ReadyTicks} (hl : legalConfig g h t = false) :
    writeConfig g h t s = enterProtocolViolation s := by simp [writeConfig, hl, raise]

theorem legalConfig_iff (g : GainCode) (h : HoldTicks) (t : ReadyTicks) :
    legalConfig g h t = true ↔ g ≠ 0 ∧ h ≠ 0 ∧ t ≠ 0 := by simp [legalConfig, and_assoc]

theorem cfgWord_fields (t : ReadyTicks) (h : HoldTicks) (g : GainCode) :
    cfgwTimeout (cfgWordOf t h g) = t ∧ cfgwHold (cfgWordOf t h g) = h ∧ cfgwGain (cfgWordOf t h g) = g := by
  refine ⟨?_, ?_, ?_⟩ <;> apply BitVec.eq_of_getLsbD_eq <;> intro i hi <;>
    simp only [cfgwTimeout, cfgwHold, cfgwGain, cfgWordOf, BitVec.getLsbD_extractLsb', BitVec.getLsbD_append, hi,
      decide_true, Bool.true_and]
  · simp [show ¬ (18 + i < 2) by omega, show ¬ (18 + i - 2 < 16) by omega]; congr 1; omega
  · simp [show ¬ (2 + i < 2) by omega, show 2 + i - 2 = i by omega, hi]
  · simp [hi]

theorem decodeCfgw_cfgWordOf (t : ReadyTicks) (h : HoldTicks) (g : GainCode) :
    decodeCfgw (cfgWordOf t h g) = match gainOfCode g with
      | some .a128 => .ok (.cfgA128 h t)
      | some .a64 => .ok (.cfgA64 h t)
      | some .b32 => .ok (.cfgB32 h t)
      | none => .error .illegalGain := by
  obtain ⟨ht, hh, hg⟩ := cfgWord_fields t h g
  rcases hx : gainOfCode g with _ | _ | _ | _ <;> simp [decodeCfgw, ht, hh, hg, hx]

theorem gainOfCode_cases (g : GainCode) :
    (g = 0 ∧ gainOfCode g = none) ∨ ∃ x, g = Config.gainN x ∧ gainOfCode g = some x := by
  have h : g = 0 ∨ g = 1 ∨ g = 2 ∨ g = 3 := by revert g; decide
  rcases h with rfl | rfl | rfl | rfl
  · exact .inl ⟨rfl, rfl⟩
  · exact .inr ⟨.a128, rfl, rfl⟩
  · exact .inr ⟨.a64, rfl, rfl⟩
  · exact .inr ⟨.b32, rfl, rfl⟩

/-- CFG's part of a tick in one equation: a configuration word on the ports is written or rejected (R180 (3), R190, R222). -/
theorem runConfig_eq (s : State) :
    runConfig s = .next (if s.inp.cfgWe = true then
      writeConfig s.inp.cfgGain s.inp.cfgHold s.inp.cfgTimeout s else s) := by
  unfold runConfig
  split
  · simp only [decode, Inputs.cfgWord, decodeCfgw_cfgWordOf]
    rcases gainOfCode_cases s.inp.cfgGain with ⟨h0, hg⟩ | ⟨x, hx, hg⟩
    · rw [hg, h0]; rfl
    · rw [hg, hx]; cases x <;> rfl
  · rfl

end Sys2Proof.Laws
end

