-- ==== Sys2Proof/Laws/Exec.lean ====
section
/-! SUPPORT. Said once: every next state a meaning can answer, in normal form. Later proofs take `Effect` apart and unfold
no meaning. -/

namespace Sys2Proof.Laws

open Sys2Proof.Machine

/-- `Effect i s t`: `t` is a next state of `i` at `s`, with the conditions under which it is. -/
inductive Effect : Instr → State → State → Prop where
  | cancStop (s : State) (h : s.inp.cancel = true) :
      Effect .canc s { s with stopped := true, history := s.history ++ [.stop] }
  | cancGo (s : State) (h : s.inp.cancel = false) : Effect .canc s { s with st := .idle, ph := 1 }
  | latg (s : State) : Effect .latg s { s with
      nCur := s.cfgGain, holdCur := s.cfgHold, timeoutCur := s.cfgTimeout, readyCnt := 0, st := .idle, ph := 2 }
  | rdyFault (s : State) (hm : s.params.readyMode = .poll) (hf : s.inp.pinFault = true) :
      Effect .rdy s (enterHardwareFault s)
  | rdyReady (s : State) (hm : s.params.readyMode = .poll) (hf : s.inp.pinFault = false) (hd : s.inp.data = false) :
      Effect .rdy s { s with history := s.history ++ [.poll false], st := .idle, ph := 3 }
  | rdyWait (s : State) (hm : s.params.readyMode = .poll) (hf : s.inp.pinFault = false) (hd : s.inp.data = true)
      (hc : s.readyCnt.toNat + 1 < s.timeoutCur.toNat) :
      Effect .rdy s { s with
        history := s.history ++ [.poll true], readyCnt := BitVec.ofNat 32 (s.readyCnt.toNat + 1) }
  | rdyTimeout (s : State) (hm : s.params.readyMode = .poll) (hf : s.inp.pinFault = false) (hd : s.inp.data = true)
      (hc : s.timeoutCur.toNat ≤ s.readyCnt.toNat + 1) :
      Effect .rdy s (enterReadyTimeout { s with history := s.history ++ [.poll true] })
  | rdySettled (s : State) (hm : s.params.readyMode = .fixedDelay)
      (hc : s.params.settleTicks ≤ s.readyCnt.toNat + 1) : Effect .rdy s { s with st := .idle, ph := 3 }
  | rdySettling (s : State) (hm : s.params.readyMode = .fixedDelay)
      (hc : s.readyCnt.toNat + 1 < s.params.settleTicks) :
      Effect .rdy s { s with readyCnt := BitVec.ofNat 32 (s.readyCnt.toNat + 1) }
  | clr (s : State) :
      Effect .clr s { s with raw := 0, bitLatch := false, bitIdx := 0, st := .pulseTrain, ph := 0 }
  | sext (s : State) : Effect .sext s { s with sample := signExtendRaw s.raw, st := .signExtend, ph := 1 }
  | emit (s : State) : Effect .emit s { s with
      sampleValid := true, err := .none, history := s.history ++ [.emit s.sample], st := .idle, ph := 0 }
  | seth (g : Slot) (s : State) (hf : s.inp.pinFault = false) : Effect (.seth g) s { s with
      clock := true, pin := .driven true, holdCnt := s.holdCur, history := s.history ++ [.ckHi], st := g.st,
      ph := phaseAfterSeth s.params.samplePoint g }
  | sethFault (g : Slot) (s : State) (hf : s.inp.pinFault = true) : Effect (.seth g) s (enterHardwareFault s)
  | holdRunning (g : Slot) (l : HoldHalf) (s : State) (h : 1 < s.holdCnt.toNat) :
      Effect (.hold g l) s { s with holdCnt := s.holdCnt - 1 }
  | holdDataHigh (s : State) (h : s.holdCnt = 1) : Effect (.hold .data .high) s { s with
      holdCnt := 0, history := s.history ++ [.hold s.holdCur], st := .pulseTrain,
      ph := phaseAfterDataHigh s.params.samplePoint }
  | holdGainHigh (s : State) (h : s.holdCnt = 1) : Effect (.hold .gain .high) s { s with
      holdCnt := 0, history := s.history ++ [.hold s.holdCur], st := .gainSelect, ph := 4 }
  | holdDataLast (s : State) (h : s.holdCnt = 1) (hb : s.bitIdx = 23) : Effect (.hold .data .low) s { s with
      holdCnt := 0, history := s.history ++ [.hold s.holdCur], pulseIdx := 0, st := .gainSelect, ph := 0 }
  | holdDataNext (s : State) (h : s.holdCnt = 1) (hb : s.bitIdx ≠ 23) : Effect (.hold .data .low) s { s with
      holdCnt := 0, history := s.history ++ [.hold s.holdCur], bitIdx := s.bitIdx + 1, st := .pulseTrain, ph := 0 }
  | holdGainLast (s : State) (h : s.holdCnt = 1) (hn : s.pulseIdx.toNat + 1 = s.nCur.toNat) :
      Effect (.hold .gain .low) s { s with
        holdCnt := 0, history := s.history ++ [.hold s.holdCur], conv := s.conv.frameDone s.nCur, st := .signExtend,
        ph := 0 }
  | holdGainNext (s : State) (h : s.holdCnt = 1) (hn : s.pulseIdx.toNat + 1 ≠ s.nCur.toNat) :
      Effect (.hold .gain .low) s { s with
        holdCnt := 0, history := s.history ++ [.hold s.holdCur], pulseIdx := s.pulseIdx + 1, st := .gainSelect, ph := 0 }
  | samp (s : State) (hf : s.inp.pinFault = false) : Effect .samp s { s with
      bitLatch := s.inp.data, history := s.history ++ [.rd s.inp.data], st := .pulseTrain,
      ph := phaseAfterSamp s.params.samplePoint }
  | sampFault (s : State) (hf : s.inp.pinFault = true) : Effect .samp s (enterHardwareFault s)
  | shin (s : State) : Effect .shin s { s with raw := shiftIn s.raw s.bitLatch, st := .pulseTrain, ph := 4 }
  | setl (g : Slot) (s : State) (hf : s.inp.pinFault = false) : Effect (.setl g) s { s with
      clock := false, pin := .driven false, holdCnt := s.holdCur, history := s.history ++ [.ckLo], st := g.st, ph := 5 }
  | setlFault (g : Slot) (s : State) (hf : s.inp.pinFault = true) : Effect (.setl g) s (enterHardwareFault s)
  | cfgA128 (h : HoldTicks) (t : ReadyTicks) (s : State) : Effect (.cfgA128 h t) s (writeConfig 1 h t s)
  | cfgA64 (h : HoldTicks) (t : ReadyTicks) (s : State) : Effect (.cfgA64 h t) s (writeConfig 2 h t s)
  | cfgB32 (h : HoldTicks) (t : ReadyTicks) (s : State) : Effect (.cfgB32 h t) s (writeConfig 3 h t s)

theorem execRdy_effect {s t : State} (h : execRdy s = .next t) : Effect .rdy s t := by
  cases hm : s.params.readyMode with
  | poll =>
    rw [execRdy_poll hm] at h
    cases hf : s.inp.pinFault with
    | true => rw [pollReady_fault hf] at h; cases h; exact .rdyFault s hm hf
    | false =>
      cases hd : s.inp.data with
      | false => rw [pollReady_ready hf hd] at h; cases h; exact .rdyReady s hm hf hd
      | true =>
        by_cases hc : s.readyCnt.toNat + 1 < s.timeoutCur.toNat
        · rw [pollReady_wait hf hd hc] at h; cases h; exact .rdyWait s hm hf hd hc
        · rw [pollReady_timeout hf hd (by omega)] at h; cases h; exact .rdyTimeout s hm hf hd (by omega)
  | fixedDelay =>
    rw [execRdy_fixedDelay hm] at h
    by_cases hc : s.readyCnt.toNat + 1 < s.params.settleTicks
    · rw [settle_wait hc] at h; cases h; exact .rdySettling s hm hc
    · rw [settle_over (by omega)] at h; cases h; exact .rdySettled s hm (by omega)

theorem execHold_effect {g : Slot} {l : HoldHalf} {s t : State} (h : execHold g l s = .next t) : Effect (.hold g l) s t := by
  by_cases h0 : s.holdCnt = 0
  · rw [execHold_refused g l h0] at h; cases h
  · by_cases h1 : s.holdCnt = 1
    · rw [execHold_last g l h1] at h
      cases h
      match g, l with
      | .data, .high => exact .holdDataHigh s h1
      | .gain, .high => exact .holdGainHigh s h1
      | .data, .low =>
        by_cases hb : s.bitIdx = 23
        · rw [nextAfterHold, endDataSlot_last (by exact hb)]; exact Effect.holdDataLast s h1 hb
        · rw [nextAfterHold, endDataSlot_next (by exact hb)]; exact Effect.holdDataNext s h1 hb
      | .gain, .low =>
        by_cases hn : s.pulseIdx.toNat + 1 = s.nCur.toNat
        · rw [nextAfterHold, endGainSlot_last (by exact hn)]; exact Effect.holdGainLast s h1 hn
        · rw [nextAfterHold, endGainSlot_next (by exact hn)]; exact Effect.holdGainNext s h1 hn
    · have h2 : 1 < s.holdCnt.toNat := by
        have a : s.holdCnt.toNat ≠ 0 := fun e => h0 (BitVec.eq_of_toNat_eq (by simpa using e))
        have b : s.holdCnt.toNat ≠ 1 := fun e => h1 (BitVec.eq_of_toNat_eq (by simpa using e))
        omega
      rw [execHold_running g l h2] at h
      cases h
      exact .holdRunning g l s h2

/-- Every next state `exec` answers is one `Effect` lists. -/
theorem exec_effect {i : Instr} {s t : State} (h : exec i s = .next t) : Effect i s t := by
  cases i with
  | canc =>
    cases hc : s.inp.cancel with
    | true => simp only [exec, execCanc, hc, if_true] at h; cases h; exact .cancStop s hc
    | false => simp only [exec, execCanc, hc] at h; cases h; exact .cancGo s hc
  | latg => cases h; exact .latg s
  | rdy => exact execRdy_effect h
  | clr => cases h; exact .clr s
  | sext => cases h; exact .sext s
  | emit => cases h; exact .emit s
  | seth g =>
    cases hf : s.inp.pinFault with
    | true => rw [exec, execSeth, driveClock_fault _ _ _ _ hf] at h; cases h; exact .sethFault g s hf
    | false => rw [exec, execSeth, driveClock_ok _ _ _ _ hf] at h; cases h; exact .seth g s hf
  | hold g l => exact execHold_effect h
  | samp =>
    cases hf : s.inp.pinFault with
    | true => rw [exec, execSamp_fault hf] at h; cases h; exact .sampFault s hf
    | false => rw [exec, execSamp_ok hf] at h; cases h; exact .samp s hf
  | shin => cases h; exact .shin s
  | setl g =>
    cases hf : s.inp.pinFault with
    | true => rw [exec, execSetl, driveClock_fault _ _ _ _ hf] at h; cases h; exact .setlFault g s hf
    | false => rw [exec, execSetl, driveClock_ok _ _ _ _ hf] at h; cases h; exact .setl g s hf
  | cfgA128 a b => cases h; exact .cfgA128 a b s
  | cfgA64 a b => cases h; exact .cfgA64 a b s
  | cfgB32 a b => cases h; exact .cfgB32 a b s

/-- `exec` answers no fault, and refuses only a HOLD with an empty hold counter. -/
theorem exec_outcome (i : Instr) (s : State) :
    (∃ t, exec i s = .next t) ∨ (∃ g l, i = .hold g l ∧ s.holdCnt = 0) := by
  cases i with
  | canc => exact .inl (by cases hc : s.inp.cancel <;> simp [exec, execCanc, hc])
  | latg => exact .inl ⟨_, rfl⟩
  | rdy =>
    refine .inl ?_
    cases hm : s.params.readyMode with
    | poll =>
      rw [exec, execRdy_poll hm]
      cases hf : s.inp.pinFault with
      | true => exact ⟨_, pollReady_fault hf⟩
      | false =>
        cases hd : s.inp.data with
        | false => exact ⟨_, pollReady_ready hf hd⟩
        | true =>
          by_cases hc : s.readyCnt.toNat + 1 < s.timeoutCur.toNat
          · exact ⟨_, pollReady_wait hf hd hc⟩
          · exact ⟨_, pollReady_timeout hf hd (by omega)⟩
    | fixedDelay =>
      rw [exec, execRdy_fixedDelay hm]
      by_cases hc : s.readyCnt.toNat + 1 < s.params.settleTicks
      · exact ⟨_, settle_wait hc⟩
      · exact ⟨_, settle_over (by omega)⟩
  | clr => exact .inl ⟨_, rfl⟩
  | sext => exact .inl ⟨_, rfl⟩
  | emit => exact .inl ⟨_, rfl⟩
  | seth g =>
    cases hf : s.inp.pinFault with
    | true => exact .inl ⟨_, driveClock_fault _ _ _ _ hf⟩
    | false => exact .inl ⟨_, driveClock_ok _ _ _ _ hf⟩
  | hold g l =>
    by_cases h0 : s.holdCnt = 0
    · exact .inr ⟨g, l, rfl, h0⟩
    · refine .inl ?_
      simp only [exec, execHold, if_neg h0]
      split <;> exact ⟨_, rfl⟩
  | samp =>
    cases hf : s.inp.pinFault with
    | true => exact .inl ⟨_, execSamp_fault hf⟩
    | false => exact .inl ⟨_, execSamp_ok hf⟩
  | shin => exact .inl ⟨_, rfl⟩
  | setl g =>
    cases hf : s.inp.pinFault with
    | true => exact .inl ⟨_, driveClock_fault _ _ _ _ hf⟩
    | false => exact .inl ⟨_, driveClock_ok _ _ _ _ hf⟩
  | cfgA128 a b => exact .inl ⟨_, rfl⟩
  | cfgA64 a b => exact .inl ⟨_, rfl⟩
  | cfgB32 a b => exact .inl ⟨_, rfl⟩

/-- Writing the configuration touches the three registers, the strobe and the history only. -/
theorem writeConfig_frame (g : GainCode) (h : HoldTicks) (t : ReadyTicks) (s : State) :
    writeConfig g h t s = { s with
      cfgGain := (writeConfig g h t s).cfgGain, cfgHold := (writeConfig g h t s).cfgHold,
      cfgTimeout := (writeConfig g h t s).cfgTimeout, cfgRej := (writeConfig g h t s).cfgRej,
      history := (writeConfig g h t s).history } := by
  unfold writeConfig
  split <;> rfl

/-- No meaning touches the ports, the script, the tick count or the parameters. -/
theorem exec_keeps_environment {i : Instr} {s t : State} (h : exec i s = .next t) :
    t.inp = s.inp ∧ t.script = s.script ∧ t.tick = s.tick ∧ t.params = s.params := by
  cases exec_effect h <;> first | exact ⟨rfl, rfl, rfl, rfl⟩ | (rw [writeConfig_frame]; exact ⟨rfl, rfl, rfl, rfl⟩)

end Sys2Proof.Laws
end

