-- ==== Sys2Proof/Laws/PerInstr.lean ====
section
/-! SUPPORT. One lemma per instruction: its words match its row of spec/opcode_table.json, `word & mask = match`. -/

namespace Sys2Proof.Laws

/-- `i`'s encoding has the format, the `match` and the `mask` of its row (R91, R93, R94). -/
def TableRow.Statement (i : Instr) : Prop :=
  match i with
  | .canc => ∃ w, encode i = .seq w ∧ w &&& 0x1F = 0x00
  | .latg => ∃ w, encode i = .seq w ∧ w &&& 0x1F = 0x01
  | .rdy => ∃ w, encode i = .seq w ∧ w &&& 0x1F = 0x02
  | .clr => ∃ w, encode i = .seq w ∧ w &&& 0x1F = 0x03
  | .sext => ∃ w, encode i = .seq w ∧ w &&& 0x1F = 0x08
  | .emit => ∃ w, encode i = .seq w ∧ w &&& 0x1F = 0x09
  | .seth _ => ∃ w, encode i = .seq w ∧ w &&& 0x17 = 0x10
  | .hold _ _ => ∃ w, encode i = .seq w ∧ w &&& 0x13 = 0x11
  | .samp => ∃ w, encode i = .seq w ∧ w &&& 0x1F = 0x12
  | .shin => ∃ w, encode i = .seq w ∧ w &&& 0x1F = 0x13
  | .setl _ => ∃ w, encode i = .seq w ∧ w &&& 0x17 = 0x14
  | .cfgA128 _ _ => ∃ w, encode i = .cfgw w ∧ w &&& 0x3 = 0x1
  | .cfgA64 _ _ => ∃ w, encode i = .cfgw w ∧ w &&& 0x3 = 0x2
  | .cfgB32 _ _ => ∃ w, encode i = .cfgw w ∧ w &&& 0x3 = 0x3

/-- The two low bits of a configuration word are its gain field (R93). -/
theorem cfgWord_and_three (t : ReadyTicks) (h : HoldTicks) (g : GainCode) :
    cfgWordOf t h g &&& 0x3 = g.zeroExtend 50 := by
  apply BitVec.eq_of_toNat_eq
  have hg := g.isLt
  have hm : ∀ n : Nat, n &&& 3 = n % 4 := fun n => Nat.and_two_pow_sub_one_eq_mod n 2
  rw [BitVec.toNat_and, cfgWordOf, BitVec.toNat_append, ← Nat.shiftLeft_add_eq_or_of_lt hg, Nat.shiftLeft_eq]
  simp [hm]
  omega

theorem TableRow.canc : TableRow.Statement .canc := ⟨_, rfl, by decide⟩
theorem TableRow.latg : TableRow.Statement .latg := ⟨_, rfl, by decide⟩
theorem TableRow.rdy : TableRow.Statement .rdy := ⟨_, rfl, by decide⟩
theorem TableRow.clr : TableRow.Statement .clr := ⟨_, rfl, by decide⟩
theorem TableRow.sext : TableRow.Statement .sext := ⟨_, rfl, by decide⟩
theorem TableRow.emit : TableRow.Statement .emit := ⟨_, rfl, by decide⟩
theorem TableRow.seth (g : Slot) : TableRow.Statement (.seth g) := ⟨_, rfl, by cases g <;> decide⟩
theorem TableRow.hold (g : Slot) (l : HoldHalf) : TableRow.Statement (.hold g l) :=
  ⟨_, rfl, by cases g <;> cases l <;> decide⟩
theorem TableRow.samp : TableRow.Statement .samp := ⟨_, rfl, by decide⟩
theorem TableRow.shin : TableRow.Statement .shin := ⟨_, rfl, by decide⟩
theorem TableRow.setl (g : Slot) : TableRow.Statement (.setl g) := ⟨_, rfl, by cases g <;> decide⟩
theorem TableRow.cfgA128 (hold : HoldTicks) (timeout : ReadyTicks) : TableRow.Statement (.cfgA128 hold timeout) :=
  ⟨_, rfl, (cfgWord_and_three ..).trans (by decide)⟩
theorem TableRow.cfgA64 (hold : HoldTicks) (timeout : ReadyTicks) : TableRow.Statement (.cfgA64 hold timeout) :=
  ⟨_, rfl, (cfgWord_and_three ..).trans (by decide)⟩
theorem TableRow.cfgB32 (hold : HoldTicks) (timeout : ReadyTicks) : TableRow.Statement (.cfgB32 hold timeout) :=
  ⟨_, rfl, (cfgWord_and_three ..).trans (by decide)⟩

end Sys2Proof.Laws
end

