-- ==== Sys2Proof/Laws/Tick.lean ====
section
/-! SUPPORT. What a tick can do, and the input levels of the ticks ahead. -/

namespace Sys2Proof.Laws

open Sys2Proof.Machine Sys2Proof.Safety

/-! ## The tick -/

theorem step_reset {s : State} (hp : s.params.ok = true) (hr : s.inp.rst = true) :
    step s = .next (endTick (applyReset s)) := by simp [step, runTick, hp, hr]

theorem step_badParams {s : State} (hp : s.params.ok = false) : step s = .refused .badParams := by
  simp [step, runTick, hp]

theorem step_meaningless {s : State} {r : Refusal} (hp : s.params.ok = true) (hr : s.inp.rst = false)
    (hm : s.meaningless? = some r) : step s = .refused r := by simp [step, runTick, runAgents, hp, hr, hm]

/-- The configuration part of a tick, as a function. -/
def afterConfig (s : State) : State :=
  if s.inp.cfgWe = true then writeConfig s.inp.cfgGain s.inp.cfgHold s.inp.cfgTimeout s else s

theorem step_agents {s : State} (hp : s.params.ok = true) (hr : s.inp.rst = false) (hm : s.meaningless? = none) :
    step s = andThen (runSequencer (beginTick s)) fun u => .next (endTick (afterConfig u)) := by
  simp only [step, runTick, runAgents, hp, hr, hm, runConfig_eq, afterConfig]; rfl

theorem runSequencer_stopped {s : State} (h : s.stopped = true) : runSequencer s = .next s := by simp [runSequencer, h]

theorem runSequencer_exec {s : State} {i : Instr} (h : s.stopped = false) (hd : decode (.seq s.seqWord) = .ok i) :
    runSequencer s = exec i s := by simp [runSequencer, h, hd]

/-- Everything a tick that answers a next state can have done. -/
theorem step_cases {s t : State} (h : step s = .next t) :
    s.params.ok = true ∧
      ((s.inp.rst = true ∧ t = endTick (applyReset s)) ∨
        (s.inp.rst = false ∧ s.meaningless? = none ∧ s.stopped = true ∧ t = endTick (afterConfig (beginTick s))) ∨
        (s.inp.rst = false ∧ s.meaningless? = none ∧ s.stopped = false ∧
          ∃ i u, decode (.seq s.seqWord) = .ok i ∧ exec i (beginTick s) = .next u ∧ t = endTick (afterConfig u))) := by
  cases hp : s.params.ok with
  | false => rw [step_badParams hp] at h; cases h
  | true =>
    refine ⟨rfl, ?_⟩
    cases hr : s.inp.rst with
    | true => rw [step_reset hp hr] at h; cases h; exact .inl ⟨rfl, rfl⟩
    | false =>
      cases hm : s.meaningless? with
      | some r => rw [step_meaningless hp hr hm] at h; cases h
      | none =>
        rw [step_agents hp hr hm] at h
        obtain ⟨u, hu, h⟩ := andThen_eq_next h
        cases h
        cases hs : s.stopped with
        | true => rw [runSequencer_stopped (by simpa using hs)] at hu; cases hu; exact .inr (.inl ⟨rfl, rfl, rfl, rfl⟩)
        | false =>
          cases hd : decode (.seq s.seqWord) with
          | error e =>
            have hd' : decode (.seq (beginTick s).seqWord) = .error e := hd
            simp [runSequencer, hs, hd'] at hu
          | ok i =>
            rw [runSequencer_exec (s := beginTick s) (i := i) (by simpa using hs) hd] at hu
            exact .inr (.inr ⟨rfl, rfl, rfl, i, u, rfl, hu, rfl⟩)

/-! ## The frame of a tick's configuration part -/

theorem afterConfig_cases (s : State) :
    afterConfig s = s ∨ (s.inp.cfgWe = true ∧ legalConfig s.inp.cfgGain s.inp.cfgHold s.inp.cfgTimeout = true ∧
      afterConfig s = { s with
        cfgGain := s.inp.cfgGain, cfgHold := s.inp.cfgHold, cfgTimeout := s.inp.cfgTimeout,
        history := s.history ++ [.cfgOk s.inp.cfgGain s.inp.cfgHold s.inp.cfgTimeout] }) ∨
      (s.inp.cfgWe = true ∧ legalConfig s.inp.cfgGain s.inp.cfgHold s.inp.cfgTimeout = false ∧
        afterConfig s = enterProtocolViolation s) := by
  unfold afterConfig
  cases hw : s.inp.cfgWe with
  | false => exact .inl rfl
  | true =>
    cases hl : legalConfig s.inp.cfgGain s.inp.cfgHold s.inp.cfgTimeout with
    | true => exact .inr (.inl ⟨rfl, rfl, by simp [writeConfig_legal hl]⟩)
    | false => exact .inr (.inr ⟨rfl, rfl, by simp [writeConfig_illegal hl]⟩)

/-! CFG writes the configuration registers, its strobe and the history, nothing else (R180). -/

theorem afterConfig_keeps {α : Type} (f : State → α) (hw : ∀ g h t s, f (writeConfig g h t s) = f s) (s : State) :
    f (afterConfig s) = f s := by
  unfold afterConfig
  split
  · exact hw _ _ _ _
  · rfl

@[simp] theorem writeConfig_raw (g : GainCode) (h : HoldTicks) (t : ReadyTicks) (s : State) :
    (writeConfig g h t s).raw = s.raw := by rw [writeConfig_frame]
@[simp] theorem writeConfig_bitLatch (g : GainCode) (h : HoldTicks) (t : ReadyTicks) (s : State) :
    (writeConfig g h t s).bitLatch = s.bitLatch := by rw [writeConfig_frame]
@[simp] theorem writeConfig_sample (g : GainCode) (h : HoldTicks) (t : ReadyTicks) (s : State) :
    (writeConfig g h t s).sample = s.sample := by rw [writeConfig_frame]
@[simp] theorem writeConfig_st (g : GainCode) (h : HoldTicks) (t : ReadyTicks) (s : State) :
    (writeConfig g h t s).st = s.st := by rw [writeConfig_frame]
@[simp] theorem writeConfig_ph (g : GainCode) (h : HoldTicks) (t : ReadyTicks) (s : State) :
    (writeConfig g h t s).ph = s.ph := by rw [writeConfig_frame]
@[simp] theorem writeConfig_bitIdx (g : GainCode) (h : HoldTicks) (t : ReadyTicks) (s : State) :
    (writeConfig g h t s).bitIdx = s.bitIdx := by rw [writeConfig_frame]
@[simp] theorem writeConfig_pulseIdx (g : GainCode) (h : HoldTicks) (t : ReadyTicks) (s : State) :
    (writeConfig g h t s).pulseIdx = s.pulseIdx := by rw [writeConfig_frame]
@[simp] theorem writeConfig_holdCnt (g : GainCode) (h : HoldTicks) (t : ReadyTicks) (s : State) :
    (writeConfig g h t s).holdCnt = s.holdCnt := by rw [writeConfig_frame]
@[simp] theorem writeConfig_readyCnt (g : GainCode) (h : HoldTicks) (t : ReadyTicks) (s : State) :
    (writeConfig g h t s).readyCnt = s.readyCnt := by rw [writeConfig_frame]
@[simp] theorem writeConfig_clock (g : GainCode) (h : HoldTicks) (t : ReadyTicks) (s : State) :
    (writeConfig g h t s).clock = s.clock := by rw [writeConfig_frame]
@[simp] theorem writeConfig_nCur (g : GainCode) (h : HoldTicks) (t : ReadyTicks) (s : State) :
    (writeConfig g h t s).nCur = s.nCur := by rw [writeConfig_frame]
@[simp] theorem writeConfig_holdCur (g : GainCode) (h : HoldTicks) (t : ReadyTicks) (s : State) :
    (writeConfig g h t s).holdCur = s.holdCur := by rw [writeConfig_frame]
@[simp] theorem writeConfig_timeoutCur (g : GainCode) (h : HoldTicks) (t : ReadyTicks) (s : State) :
    (writeConfig g h t s).timeoutCur = s.timeoutCur := by rw [writeConfig_frame]
@[simp] theorem writeConfig_err (g : GainCode) (h : HoldTicks) (t : ReadyTicks) (s : State) :
    (writeConfig g h t s).err = s.err := by rw [writeConfig_frame]
@[simp] theorem writeConfig_stopped (g : GainCode) (h : HoldTicks) (t : ReadyTicks) (s : State) :
    (writeConfig g h t s).stopped = s.stopped := by rw [writeConfig_frame]
@[simp] theorem writeConfig_sampleValid (g : GainCode) (h : HoldTicks) (t : ReadyTicks) (s : State) :
    (writeConfig g h t s).sampleValid = s.sampleValid := by rw [writeConfig_frame]
@[simp] theorem writeConfig_errValid (g : GainCode) (h : HoldTicks) (t : ReadyTicks) (s : State) :
    (writeConfig g h t s).errValid = s.errValid := by rw [writeConfig_frame]
@[simp] theorem writeConfig_conv (g : GainCode) (h : HoldTicks) (t : ReadyTicks) (s : State) :
    (writeConfig g h t s).conv = s.conv := by rw [writeConfig_frame]
@[simp] theorem writeConfig_pin (g : GainCode) (h : HoldTicks) (t : ReadyTicks) (s : State) :
    (writeConfig g h t s).pin = s.pin := by rw [writeConfig_frame]
@[simp] theorem writeConfig_pinDraws (g : GainCode) (h : HoldTicks) (t : ReadyTicks) (s : State) :
    (writeConfig g h t s).pinDraws = s.pinDraws := by rw [writeConfig_frame]
@[simp] theorem writeConfig_params (g : GainCode) (h : HoldTicks) (t : ReadyTicks) (s : State) :
    (writeConfig g h t s).params = s.params := by rw [writeConfig_frame]
@[simp] theorem writeConfig_inp (g : GainCode) (h : HoldTicks) (t : ReadyTicks) (s : State) :
    (writeConfig g h t s).inp = s.inp := by rw [writeConfig_frame]
@[simp] theorem writeConfig_script (g : GainCode) (h : HoldTicks) (t : ReadyTicks) (s : State) :
    (writeConfig g h t s).script = s.script := by rw [writeConfig_frame]
@[simp] theorem writeConfig_tick (g : GainCode) (h : HoldTicks) (t : ReadyTicks) (s : State) :
    (writeConfig g h t s).tick = s.tick := by rw [writeConfig_frame]

@[simp] theorem afterConfig_raw (s : State) : (afterConfig s).raw = s.raw :=
  afterConfig_keeps State.raw writeConfig_raw s
@[simp] theorem afterConfig_bitLatch (s : State) : (afterConfig s).bitLatch = s.bitLatch :=
  afterConfig_keeps State.bitLatch writeConfig_bitLatch s
@[simp] theorem afterConfig_sample (s : State) : (afterConfig s).sample = s.sample :=
  afterConfig_keeps State.sample writeConfig_sample s
@[simp] theorem afterConfig_st (s : State) : (afterConfig s).st = s.st :=
  afterConfig_keeps State.st writeConfig_st s
@[simp] theorem afterConfig_ph (s : State) : (afterConfig s).ph = s.ph :=
  afterConfig_keeps State.ph writeConfig_ph s
@[simp] theorem afterConfig_bitIdx (s : State) : (afterConfig s).bitIdx = s.bitIdx :=
  afterConfig_keeps State.bitIdx writeConfig_bitIdx s
@[simp] theorem afterConfig_pulseIdx (s : State) : (afterConfig s).pulseIdx = s.pulseIdx :=
  afterConfig_keeps State.pulseIdx writeConfig_pulseIdx s
@[simp] theorem afterConfig_holdCnt (s : State) : (afterConfig s).holdCnt = s.holdCnt :=
  afterConfig_keeps State.holdCnt writeConfig_holdCnt s
@[simp] theorem afterConfig_readyCnt (s : State) : (afterConfig s).readyCnt = s.readyCnt :=
  afterConfig_keeps State.readyCnt writeConfig_readyCnt s
@[simp] theorem afterConfig_clock (s : State) : (afterConfig s).clock = s.clock :=
  afterConfig_keeps State.clock writeConfig_clock s
@[simp] theorem afterConfig_nCur (s : State) : (afterConfig s).nCur = s.nCur :=
  afterConfig_keeps State.nCur writeConfig_nCur s
@[simp] theorem afterConfig_holdCur (s : State) : (afterConfig s).holdCur = s.holdCur :=
  afterConfig_keeps State.holdCur writeConfig_holdCur s
@[simp] theorem afterConfig_timeoutCur (s : State) : (afterConfig s).timeoutCur = s.timeoutCur :=
  afterConfig_keeps State.timeoutCur writeConfig_timeoutCur s
@[simp] theorem afterConfig_err (s : State) : (afterConfig s).err = s.err :=
  afterConfig_keeps State.err writeConfig_err s
@[simp] theorem afterConfig_stopped (s : State) : (afterConfig s).stopped = s.stopped :=
  afterConfig_keeps State.stopped writeConfig_stopped s
@[simp] theorem afterConfig_sampleValid (s : State) : (afterConfig s).sampleValid = s.sampleValid :=
  afterConfig_keeps State.sampleValid writeConfig_sampleValid s
@[simp] theorem afterConfig_errValid (s : State) : (afterConfig s).errValid = s.errValid :=
  afterConfig_keeps State.errValid writeConfig_errValid s
@[simp] theorem afterConfig_conv (s : State) : (afterConfig s).conv = s.conv :=
  afterConfig_keeps State.conv writeConfig_conv s
@[simp] theorem afterConfig_pin (s : State) : (afterConfig s).pin = s.pin :=
  afterConfig_keeps State.pin writeConfig_pin s
@[simp] theorem afterConfig_pinDraws (s : State) : (afterConfig s).pinDraws = s.pinDraws :=
  afterConfig_keeps State.pinDraws writeConfig_pinDraws s
@[simp] theorem afterConfig_params (s : State) : (afterConfig s).params = s.params :=
  afterConfig_keeps State.params writeConfig_params s
@[simp] theorem afterConfig_inp (s : State) : (afterConfig s).inp = s.inp :=
  afterConfig_keeps State.inp writeConfig_inp s
@[simp] theorem afterConfig_script (s : State) : (afterConfig s).script = s.script :=
  afterConfig_keeps State.script writeConfig_script s
@[simp] theorem afterConfig_tick (s : State) : (afterConfig s).tick = s.tick :=
  afterConfig_keeps State.tick writeConfig_tick s

/-- CFG records nothing the sequencer's history shows (R180). -/
theorem afterConfig_sequencerHistory (s : State) : sequencerHistory (afterConfig s) = sequencerHistory s := by
  rcases afterConfig_cases s with h | ⟨-, -, h⟩ | ⟨-, -, h⟩ <;> rw [h] <;>
    simp only [sequencerHistory, enterProtocolViolation_history, List.filter_append] <;>
    exact List.append_nil _

/-! ## Input levels ahead -/

@[simp] theorem inputAt_zero (s : State) : s.inputAt 0 = s.inp := rfl

/-- After a tick the levels `k` ticks ahead are the levels `k + 1` ticks ahead of before. -/
theorem inputAt_endTick (s : State) (k : Nat) : (endTick s).inputAt k = s.inputAt (k + 1) := by
  cases k with
  | zero => rfl
  | succ k =>
    simp only [State.inputAt, endTick_script, endTick_tick, List.getElem?_tail]
    split <;> simp_all
    congr 1; omega

theorem inputAt_congr {s t : State} (hi : t.inp = s.inp) (hs : t.script = s.script) (ht : t.tick = s.tick) (k : Nat) :
    t.inputAt k = s.inputAt k := by
  cases k <;> simp [State.inputAt, hi, hs, ht]

/-- Whatever a tick does, the environment's levels move up by one. -/
theorem step_inputAt {s t : State} (h : step s = .next t) (k : Nat) : t.inputAt k = s.inputAt (k + 1) := by
  obtain ⟨-, ⟨-, rfl⟩ | ⟨-, -, -, rfl⟩ | ⟨-, -, -, i, u, -, hu, rfl⟩⟩ := step_cases h
  · rw [inputAt_endTick]; exact inputAt_congr rfl rfl rfl _
  · rw [inputAt_endTick]; exact inputAt_congr (by simp) (by simp) (by simp) _
  · obtain ⟨hi, hs, ht, -⟩ := exec_keeps_environment hu
    rw [inputAt_endTick]; exact inputAt_congr (by simp [hi]) (by simp [hs]) (by simp [ht]) _

/-- No tick changes the parameters (R44). -/
theorem step_params {s t : State} (h : step s = .next t) : t.params = s.params := by
  obtain ⟨-, ⟨-, rfl⟩ | ⟨-, -, -, rfl⟩ | ⟨-, -, -, i, u, -, hu, rfl⟩⟩ := step_cases h
  · rfl
  · simp
  · simp [(exec_keeps_environment hu).2.2.2]

theorem quiet_step {s t : State} {k : Nat} (h : step s = .next t) (hq : Quiet s (k + 1)) : Quiet t k := fun j hj => by
  rw [step_inputAt h]; exact hq (j + 1) (by omega)

/-! ## Runs -/

theorem run_zero (s : State) : run 0 s = .next s := rfl

theorem core_run_next (M : Host.Core) (k : Nat) {s t : M.State} (h : M.step s = .next t) :
    Host.Core.run M (k + 1) s = Host.Core.run M k t := by rw [Host.Core.run, h]

theorem core_run_fault (M : Host.Core) (k : Nat) {s : M.State} {r : M.Fault} (h : M.step s = .fault r) :
    Host.Core.run M (k + 1) s = .fault r := by rw [Host.Core.run, h]

theorem core_run_refused (M : Host.Core) (k : Nat) {s : M.State} {r : M.Refusal} (h : M.step s = .refused r) :
    Host.Core.run M (k + 1) s = .refused r := by rw [Host.Core.run, h]

theorem run_succ_eq (k : Nat) (s : State) : run (k + 1) s = andThen (step s) (run k) := by
  cases h : step s with
  | next t => exact core_run_next Sys2Proof.core k h
  | fault r => exact core_run_fault Sys2Proof.core k h
  | refused r => exact core_run_refused Sys2Proof.core k h

theorem run_succ {s t : State} (k : Nat) (h : step s = .next t) : run (k + 1) s = run k t := by
  rw [run_succ_eq, h]; rfl

theorem run_one (s : State) : run 1 s = step s := by rw [run_succ_eq]; cases step s <;> rfl

theorem andThen_assoc (o : Host.Outcome State Fault Refusal) (f g : State → Host.Outcome State Fault Refusal) :
    andThen (andThen o f) g = andThen o fun s => andThen (f s) g := by cases o <;> rfl

/-- A run of `a + b` ticks is a run of `a` ticks and then one of `b`. -/
theorem run_add (a b : Nat) (s : State) : run (a + b) s = andThen (run a s) (run b) := by
  induction a generalizing s with
  | zero => rw [Nat.zero_add, run_zero]; rfl
  | succ a ih =>
    rw [show a + 1 + b = (a + b) + 1 by omega, run_succ_eq, run_succ_eq, andThen_assoc]
    exact congrArg _ (funext ih)

end Sys2Proof.Laws
end

