-- ==== Sys2Proof/Laws/Words.lean ====
section
/-! SUPPORT. The sixteen defined sequencer words (R91), and what a tick does in each. -/

namespace Sys2Proof.Laws

open Sys2Proof.Machine Sys2Proof.Safety

/-- The operation map of R91 read as a relation between `(st, ph)` and the primitive. -/
inductive Selects : St → BitVec 3 → Instr → Prop where
  | canc : Selects .idle 0 .canc
  | latg : Selects .idle 1 .latg
  | rdy : Selects .idle 2 .rdy
  | clr : Selects .idle 3 .clr
  | sext : Selects .signExtend 0 .sext
  | emit : Selects .signExtend 1 .emit
  | sethData : Selects .pulseTrain 0 (.seth .data)
  | holdDataHigh : Selects .pulseTrain 1 (.hold .data .high)
  | samp : Selects .pulseTrain 2 .samp
  | shin : Selects .pulseTrain 3 .shin
  | setlData : Selects .pulseTrain 4 (.setl .data)
  | holdDataLow : Selects .pulseTrain 5 (.hold .data .low)
  | sethGain : Selects .gainSelect 0 (.seth .gain)
  | holdGainHigh : Selects .gainSelect 1 (.hold .gain .high)
  | setlGain : Selects .gainSelect 4 (.setl .gain)
  | holdGainLow : Selects .gainSelect 5 (.hold .gain .low)

theorem phase_cases (ph : BitVec 3) :
    ph = 0 ∨ ph = 1 ∨ ph = 2 ∨ ph = 3 ∨ ph = 4 ∨ ph = 5 ∨ ph = 6 ∨ ph = 7 := by revert ph; decide

theorem selects_decode {st : St} {ph : BitVec 3} {i : Instr} (h : Selects st ph i) :
    decode (.seq (seqWordOf st ph)) = .ok i := by cases h <;> rfl

theorem decode_selects {st : St} {ph : BitVec 3} {i : Instr} (h : decode (.seq (seqWordOf st ph)) = .ok i) :
    Selects st ph i := by
  cases st <;> rcases phase_cases ph with rfl | rfl | rfl | rfl | rfl | rfl | rfl | rfl <;>
    first
      | (have e := h.symm.trans (selects_decode .canc); cases e; exact .canc)
      | (have e := h.symm.trans (selects_decode .latg); cases e; exact .latg)
      | (have e := h.symm.trans (selects_decode .rdy); cases e; exact .rdy)
      | (have e := h.symm.trans (selects_decode .clr); cases e; exact .clr)
      | (have e := h.symm.trans (selects_decode .sext); cases e; exact .sext)
      | (have e := h.symm.trans (selects_decode .emit); cases e; exact .emit)
      | (have e := h.symm.trans (selects_decode .sethData); cases e; exact .sethData)
      | (have e := h.symm.trans (selects_decode .holdDataHigh); cases e; exact .holdDataHigh)
      | (have e := h.symm.trans (selects_decode .samp); cases e; exact .samp)
      | (have e := h.symm.trans (selects_decode .shin); cases e; exact .shin)
      | (have e := h.symm.trans (selects_decode .setlData); cases e; exact .setlData)
      | (have e := h.symm.trans (selects_decode .holdDataLow); cases e; exact .holdDataLow)
      | (have e := h.symm.trans (selects_decode .sethGain); cases e; exact .sethGain)
      | (have e := h.symm.trans (selects_decode .holdGainHigh); cases e; exact .holdGainHigh)
      | (have e := h.symm.trans (selects_decode .setlGain); cases e; exact .setlGain)
      | (have e := h.symm.trans (selects_decode .holdGainLow); cases e; exact .holdGainLow)
      | exact absurd h (by rintro ⟨⟩)

theorem wordDefined_selects {s : State} (h : WordDefined s) : ∃ i, Selects s.st s.ph i := by
  unfold WordDefined at h
  cases hd : decode (.seq s.seqWord) with
  | ok i => exact ⟨i, decode_selects hd⟩
  | error e => rw [hd] at h; cases h

theorem selects_wordDefined {s : State} {i : Instr} (h : Selects s.st s.ph i) : WordDefined s := by
  have := selects_decode h
  simp only [WordDefined, State.seqWord, this]; rfl

/-- The states without a meaning are the ones R92 and U6 list (log entry 6). -/
theorem meaningless_none_iff (s : State) :
    s.meaningless? = none ↔ (∃ i, Selects s.st s.ph i) ∧ s.nCur ≠ 0 ∧ s.holdCur ≠ 0 ∧ s.timeoutCur ≠ 0 ∧
      s.bitIdx.toNat ≤ 23 ∧ ¬ s.pulseIdxMeaningless := by
  unfold State.meaningless?
  cases hd : decode (.seq s.seqWord) with
  | error e =>
    simp only [reduceCtorEq, false_iff, not_and]
    rintro ⟨i, hi⟩
    have := selects_decode hi
    rw [show seqWordOf s.st s.ph = s.seqWord from rfl, hd] at this
    cases this
  | ok i =>
    have hs : ∃ i, Selects s.st s.ph i := ⟨i, decode_selects hd⟩
    simp only [hs, true_and, ne_eq]
    split
    · simp_all
    · split
      · simp_all
      · split
        · simp_all
        · split
          · simp_all
          · split
            · rename_i h; simp_all
            · rename_i h
              simp_all

theorem slots_pulseIdx {s : State} (h : SlotsLegal s) : ¬ s.pulseIdxMeaningless := by
  rintro ⟨hn, hs⟩
  rcases h.2.2 with hb | ho
  · omega
  · exact hs ho

/-- What `SlotsLegal` says of `pulse_idx` in the states that read it or follow it (R183). -/
theorem slots_pulseIdx_lt {s : State} (h : SlotsLegal s) (hst : s.st = .gainSelect ∨ s.st = .signExtend) :
    s.pulseIdx.toNat < s.nCur.toNat := by
  rcases h.2.2 with hb | ⟨-, hp | ⟨hi, -⟩⟩
  · exact hb
  · rcases hst with e | e <;> rw [e] at hp <;> cases hp
  · rcases hst with e | e <;> rw [e] at hi <;> cases hi

theorem slots_pulseIdx_le {s : State} (h : SlotsLegal s) : s.pulseIdx.toNat ≤ 2 := by
  rcases h.2.2 with hb | ho
  · have := s.nCur.isLt; omega
  · exact ho.1

theorem legal_meaningful {s : State} (h : Legal s) : s.meaningless? = none := by
  obtain ⟨-, hw, hg, hd, hs, -⟩ := h
  exact (meaningless_none_iff s).2 ⟨wordDefined_selects hw, hg.1, hd.1, hd.2.2.1, hs.1, slots_pulseIdx hs⟩

end Sys2Proof.Laws
end

