-- ==== Sys2Proof/Tests/Slice0.lean ====
section
/-! SUPPORT. Tests against spec/95_test_vectors.md (the vector's number stands at each test), the WellFormed smoke test, and
for every statement with hypotheses a concrete state and operands that meet them. -/

namespace Sys2Proof.Tests

open Sys2Proof.Machine Sys2Proof.Safety

/-! ## Small states -/

/-- The state after reset with the vectors' parameters: 1 us, poll, after_high_hold, timeout 1000. -/
def base : State := State.resetWith Config.params

/-- `s` with `seq = w`. -/
def inWord (w : BitVec 5) (s : State) : State := { s with st := seqSt w, ph := seqPh w }

/-- All inputs 0 but `data_i = 1`. -/
def dataHigh : Inputs := { Inputs.quiet with data := true }

/-- All inputs 0 but `pin_fault_i = 1`. -/
def pinFails : Inputs := { Inputs.quiet with pinFault := true }

/-- All inputs 0 but `cancel_i = 1`. -/
def cancelHigh : Inputs := { Inputs.quiet with cancel := true }

/-- All inputs 0 but `rst_i = 1`. -/
def resetHigh : Inputs := { Inputs.quiet with rst := true }

/-- All inputs 0 but a configuration operation. -/
def cfgInput (g : GainCode) (h : HoldTicks) (t : ReadyTicks) : Inputs :=
  { Inputs.quiet with cfgWe := true, cfgGain := g, cfgHold := h, cfgTimeout := t }

/-- The next state of an outcome. -/
def nextOf (o : Host.Outcome State Fault Refusal) : Option State :=
  match o with
  | .next t => some t
  | .fault _ => none
  | .refused _ => none

/-- The refusal of an outcome. -/
def refusalFrom (o : Host.Outcome State Fault Refusal) : Option Refusal :=
  match o with
  | .next _ => none
  | .fault _ => none
  | .refused r => some r

/-- The instruction a decoder's answer holds. -/
def instrOf (r : Except DecodeError Instr) : Option Instr :=
  match r with
  | .ok i => some i
  | .error _ => none

/-- The state after one tick. -/
def ticked (s : State) : Option State := nextOf (step s)

/-- The state after one primitive. -/
def executed (i : Instr) (s : State) : Option State := nextOf (exec i s)

/-! ## WellFormed: each check refuses a term -/

theorem test_wellFormed_accepts :
    WellFormed (.cfgA128 1 1) = true ∧ WellFormed (.cfgA64 65535 4294967295) = true ∧ WellFormed (.cfgB32 1 1) = true ∧
      WellFormed (.hold .gain .low) = true := by decide

theorem test_wellFormed_refuses_hold_zero :
    WellFormed (.cfgA128 0 1000) = false ∧ WellFormed (.cfgA64 0 1) = false ∧ WellFormed (.cfgB32 0 1) = false := by decide

theorem test_wellFormed_refuses_timeout_zero :
    WellFormed (.cfgA128 1 0) = false ∧ WellFormed (.cfgA64 1 0) = false ∧ WellFormed (.cfgB32 1 0) = false := by decide

/-! ## Decoding: the words of sections 6 and 7, bit by bit as the tables write them -/

/-- V70 to V75. -/
theorem test_decode_idle_and_signExtend :
    decode (.seq 0b00000) = .ok .canc ∧ decode (.seq 0b00001) = .ok .latg ∧ decode (.seq 0b00010) = .ok .rdy ∧
      decode (.seq 0b00011) = .ok .clr ∧ decode (.seq 0b01000) = .ok .sext ∧ decode (.seq 0b01001) = .ok .emit := by
  decide

/-- V76 to V81. -/
theorem test_decode_seth_hold :
    decode (.seq 0b10000) = .ok (.seth .data) ∧ decode (.seq 0b11000) = .ok (.seth .gain) ∧
      decode (.seq 0b10001) = .ok (.hold .data .high) ∧ decode (.seq 0b10101) = .ok (.hold .data .low) ∧
      decode (.seq 0b11001) = .ok (.hold .gain .high) ∧ decode (.seq 0b11101) = .ok (.hold .gain .low) := by decide

/-- V82 to V85. -/
theorem test_decode_samp_shin_setl :
    decode (.seq 0b10010) = .ok .samp ∧ decode (.seq 0b10011) = .ok .shin ∧ decode (.seq 0b10100) = .ok (.setl .data) ∧
      decode (.seq 0b11100) = .ok (.setl .gain) := by decide

/-- V86 to V90. -/
theorem test_decode_reserved :
    ∀ w ∈ [0x04, 0x07, 0x0A, 0x0F, 0x16, 0x17, 0x1A, 0x1B, 0x1E, 0x1F], decode (.seq w) = .error (.reservedWord w) := by
  decide

/-- V100 to V102. -/
theorem test_decode_cfgw_gains :
    decode (.cfgw 0xFA00005) = .ok (.cfgA128 1 1000) ∧ decode (.cfgw 0xFA00006) = .ok (.cfgA64 1 1000) ∧
      decode (.cfgw 0xFA00007) = .ok (.cfgB32 1 1000) := by decide

/-- V103, V105, V106. -/
theorem test_decode_cfgw_fields :
    decode (.cfgw 0xFA0002B) = .ok (.cfgB32 10 1000) ∧
      decode (.cfgw 0x3FFFFFFFFFFFF) = .ok (.cfgB32 65535 4294967295) ∧ decode (.cfgw 0xFA00028) = .error .illegalGain := by
  decide

/-- The host's numbering (log entry 13): 5 bits, or 8 in whole bytes, are a sequencer word, 50 or 56 a configuration word. -/
theorem test_decodeTableWord :
    decodeTableWord 8 0x15 = some (.hold .data .low) ∧ decodeTableWord 8 0x35 = none ∧
      decodeTableWord 56 0xFA0002B = some (.cfgB32 10 1000) := by decide

/-- Every placed sequencer word runs as the first instruction after reset: here HOLD, SHIN and EMIT. -/
theorem test_withFetchWord_seq :
    (ticked (State.reset.withFetchWord 8 0x11)).map (·.seqWord) = some 0x12 ∧
      (ticked (State.reset.withFetchWord 8 0x13)).map (·.seqWord) = some 0x14 ∧
      (ticked (State.reset.withFetchWord 8 0x09)).map (·.sampleValid) = some true := by decide

/-- A placed configuration word runs in the tick (V103). -/
theorem test_withFetchWord_cfgw :
    (ticked (State.reset.withFetchWord 56 0xFA0002B)).map (fun t => (t.cfgGain, t.cfgHold, t.cfgTimeout)) =
      some (3, 10, 1000) := by decide

/-! ## One step per instruction -/

/-- V160. -/
theorem test_canc_goes_on : (ticked (inWord 0x00 base)).map (fun t => (t.seqWord, t.stopped)) = some (0x01, false) := by
  decide

/-- V161. -/
theorem test_canc_stops :
    (ticked { inWord 0x00 base with inp := cancelHigh }).map (fun t => (t.seqWord, t.stopped, t.history)) =
      some (0x00, true, [.reset, .stop]) := by decide

/-- V166. -/
theorem test_latg_latches :
    (ticked (inWord 0x01 { base with cfgGain := 3, cfgHold := 10, cfgTimeout := 1000, readyCnt := 7 })).map
      (fun t => (t.nCur, t.holdCur, t.timeoutCur, t.readyCnt, t.seqWord)) = some (3, 10, 1000, 0, 0x02) := by decide

/-- V112: the same tick's CFG is not seen by LATG. -/
theorem test_latg_misses_cfg :
    (ticked (inWord 0x01 { base with inp := cfgInput 3 1 1000 })).map (fun t => (t.nCur, t.cfgGain)) = some (1, 3) := by
  decide

/-- V123, tick 3. -/
theorem test_rdy_times_out :
    (ticked (inWord 0x02 { base with timeoutCur := 3, readyCnt := 2, inp := dataHigh })).map
      (fun t => (t.readyCnt, t.err, t.errValid, t.seqWord, t.history)) =
      some (0, .readyTimeout, true, 0x00, [.reset, .poll true, .err .readyTimeout]) := by decide

/-- V128: a failed access wins over the timeout. -/
theorem test_rdy_fault_before_timeout :
    (ticked (inWord 0x02 { base with timeoutCur := 3, readyCnt := 2, inp := { dataHigh with pinFault := true } })).map
      (fun t => (t.err, t.history)) = some (.hardwareFault, [.reset, .ckForceLo, .err .hardwareFault]) := by decide

/-- V20. -/
theorem test_clr_clears :
    (ticked (inWord 0x03 { base with raw := 0xABCDEF, bitIdx := 23, bitLatch := true })).map
      (fun t => (t.raw, t.bitIdx, t.bitLatch, t.seqWord)) = some (0, 0, false, 0x10) := by decide

/-- V10, V8. -/
theorem test_sext_extends :
    (ticked (inWord 0x08 { base with raw := 0x800001 })).map (fun t => (t.sample.toInt, t.seqWord)) =
      some (-8388607, 0x09) ∧
    (ticked (inWord 0x08 { base with raw := 0x7FFFFF })).map (·.sample) = some 0x007FFFFF := by decide

/-- V165. -/
theorem test_emit_delivers :
    (ticked (inWord 0x09 { base with sample := 0xFF800000, err := .readyTimeout })).map
      (fun t => (t.sampleValid, t.err, t.seqWord, t.history)) =
      some (true, .none, 0x00, [.reset, .emit 0xFF800000]) := by decide

/-- V41. -/
theorem test_seth_raises_the_clock :
    (ticked (inWord 0x18 { base with holdCur := 10 })).map (fun t => (t.clock, t.holdCnt, t.seqWord, t.history)) =
      some (true, 10, 0x19, [.reset, .ckHi]) := by decide

/-- V140, V143. -/
theorem test_seth_fault :
    (ticked { inWord 0x18 base with raw := 0xFFFFFF, inp := pinFails }).map
      (fun t => (t.raw, t.clock, t.err, t.seqWord, t.errValid)) = some (0, false, .hardwareFault, 0x00, true) := by decide

/-- V43, V46. -/
theorem test_hold_data :
    (ticked (inWord 0x11 { base with holdCnt := 3, holdCur := 3 })).map (fun t => (t.holdCnt, t.seqWord, t.history)) =
      some (2, 0x11, [.reset]) ∧
    (ticked (inWord 0x15 { base with holdCnt := 1, bitIdx := 23, pulseIdx := 2 })).map
      (fun t => (t.bitIdx, t.pulseIdx, t.seqWord)) = some (23, 0, 0x18) := by decide

/-- V48, V49. -/
theorem test_hold_gain :
    (ticked (inWord 0x1D { base with holdCnt := 1, pulseIdx := 0, nCur := 3 })).map (fun t => (t.pulseIdx, t.seqWord)) =
      some (1, 0x18) ∧
    (ticked (inWord 0x1D { base with holdCnt := 1, pulseIdx := 2, nCur := 3 })).map (fun t => (t.pulseIdx, t.seqWord)) =
      some (2, 0x08) := by decide

/-- V21. -/
theorem test_samp_reads :
    (ticked (inWord 0x12 { base with clock := true, inp := dataHigh })).map (fun t => (t.bitLatch, t.seqWord, t.history)) =
      some (true, 0x13, [.reset, .rd true]) := by decide

/-- V141. -/
theorem test_samp_fault :
    (ticked (inWord 0x12 { base with clock := true, raw := 0x1F, bitIdx := 5, inp := pinFails })).map
      (fun t => (t.raw, t.bitIdx, t.clock, t.history)) = some (0, 0, false, [.reset, .ckForceLo, .err .hardwareFault]) := by
  decide

/-- V26, V27. -/
theorem test_shin_shifts :
    (ticked (inWord 0x13 { base with raw := 0x55E6F7, bitLatch := true })).map (fun t => (t.raw, t.seqWord)) =
      some (0xABCDEF, 0x14) ∧
    (ticked (inWord 0x13 { base with raw := 0x800000, bitLatch := true })).map (·.raw) = some 0x000001 := by decide

/-- V51. -/
theorem test_setl_lowers_the_clock :
    (ticked (inWord 0x1C { base with clock := true, holdCur := 2 })).map (fun t => (t.clock, t.holdCnt, t.seqWord)) =
      some (false, 2, 0x1D) := by decide

/-- V144. -/
theorem test_setl_fault :
    (ticked (inWord 0x1C { base with clock := true, raw := 0xFFFFFF, pulseIdx := 1, nCur := 3, inp := pinFails })).map
      (fun t => (t.raw, t.pulseIdx, t.clock, t.nCur)) = some (0, 0, false, 3) := by decide

/-- V100 and V104 as primitives. -/
theorem test_cfgA128 :
    (executed (.cfgA128 1 3) base).map (fun t => (t.cfgGain, t.cfgHold, t.cfgTimeout, t.history)) =
      some (1, 1, 3, [.reset, .cfgOk 1 1 3]) := by decide

/-- V101. -/
theorem test_cfgA64 : (executed (.cfgA64 1 1000) base).map (fun t => (t.cfgGain, t.cfgRej)) = some (2, false) := by decide

/-- V103; V107. -/
theorem test_cfgB32 :
    (executed (.cfgB32 10 1000) base).map (fun t => (t.cfgGain, t.cfgHold)) = some (3, 10) ∧
    (executed (.cfgB32 0 1000) base).map (fun t => (t.cfgGain, t.cfgHold, t.cfgRej, t.history)) =
      some (1, 1, true, [.reset, .err .protocolViolation]) := by decide

/-- V106: gain 0 on the ports, `err` unchanged. -/
theorem test_cfg_gain_zero :
    (ticked { base with inp := cfgInput 0 10 1000 }).map (fun t => (t.cfgGain, t.cfgHold, t.cfgRej, t.err)) =
      some (1, 1, true, .none) := by decide

/-- V110: reset wins over CFG; V171: `T_CLK = 100 ns`. -/
theorem test_reset_wins :
    (ticked { base with params := { Config.params with tClkDen := 10 }, st := .pulseTrain, ph := 2, raw := 0x1F,
                        inp := { cfgInput 3 1 1000 with rst := true } }).map
      (fun t => (t.raw, t.seqWord, t.cfgGain, t.cfgHold, t.history)) = some (0, 0x00, 1, 10, [.reset, .reset]) := by decide

/-- V34. -/
theorem test_assemble_msb_first :
    assemble [true, false, true, false, true, false, true, true, true, true, false, false,
      true, true, false, true, true, true, true, false, true, true, true, true] = 0xABCDEF := by decide

/-- A reserved word is refused by name (V89). -/
theorem test_reserved_word_refused : refusalFrom (step (inWord 0x1A base)) = some (.reservedWord 0x1A) := by decide

/-- P2, tick 164: LATG leaves the last frame's count 2 beside `n_cur = 2`, and the sequencer goes on; so it does after a
timeout of that wait (log entry 6). -/
theorem test_stale_count_goes_on :
    (ticked (inWord 0x01 { base with nCur := 3, pulseIdx := 2, cfgGain := 2 })).map
      (fun t => (t.pulseIdx, t.nCur, t.seqWord, t.meaningless?)) = some (2, 2, 0x02, none) ∧
    (ticked (inWord 0x02 { base with nCur := 2, pulseIdx := 2, timeoutCur := 1, inp := dataHigh })).map
      (fun t => (t.pulseIdx, t.nCur, t.seqWord, t.meaningless?)) = some (2, 2, 0x00, none) := by decide

/-! ## Witnesses: states and operands that meet the hypotheses of each statement -/

/-- The parameters with the fixed settle delay. -/
def settling : State := State.resetWith { Config.params with readyMode := .fixedDelay }

/-- The parameters with DATA sampled before the high hold. -/
def early : State := State.resetWith { Config.params with samplePoint := .beforeHighHold }

/-- A data slot about to start, holds of 2 ticks. -/
def dataSlot : State := inWord 0x10 { base with holdCur := 2, bitIdx := 5, raw := 0x1F }

/-- A gain slot about to start. -/
def gainSlot : State := inWord 0x18 { base with raw := 0x800000, bitIdx := 23, nCur := 3 }

/-- The high hold of a data slot, with 2 of 2 ticks left. -/
def highHold : State := inWord 0x11 { base with clock := true, holdCur := 2, holdCnt := 2 }

/-- The state after a cancellation. -/
def stoppedState : State := { base with stopped := true }

/-- The 24th slot's low hold, in its last tick. -/
def lastLowHold : State := inWord 0x15 { base with bitIdx := 23, holdCnt := 1 }

/-- `s` with the inputs `i` in this tick and the next `n`. -/
def steady (i : Inputs) (n : Nat) (s : State) : State := { s with inp := i, script := List.replicate n i }

theorem steady_inputAt (i : Inputs) (n : Nat) (s : State) {j : Nat} (h : j ≤ n) : (steady i n s).inputAt j = i := by
  cases j with
  | zero => rfl
  | succ j => simp [State.inputAt, steady, Nat.lt_of_succ_le h]

theorem steady_quiet (i : Inputs) (n : Nat) (s : State) (hr : i.rst = false) (hf : i.pinFault = false) :
    Quiet (steady i n s) n := fun j hj => by
  rw [steady_inputAt i n s (Nat.le_of_lt hj)]; exact ⟨hr, hf⟩

theorem test_witness_EncodeDecodeRoundTrip :
    decode (.seq 0x1D) = .ok (.hold .gain .low) ∧ decode (.cfgw 0x3FFFFFFFFFFFF) = .ok (.cfgB32 65535 4294967295) := by decide

theorem test_witness_FetchedOperandsAreTheState :
    decode (.seq (inWord 0x10 base).seqWord) = .ok (.seth .data) ∧ decode (.seq gainSlot.seqWord) = .ok (.seth .gain) ∧
    decode (.seq (inWord 0x14 base).seqWord) = .ok (.setl .data) ∧ decode (.seq (inWord 0x1C base).seqWord) = .ok (.setl .gain) ∧
    decode (.seq highHold.seqWord) = .ok (.hold .data .high) ∧ decode (.seq lastLowHold.seqWord) = .ok (.hold .data .low) ∧
    decode (.seq (inWord 0x19 base).seqWord) = .ok (.hold .gain .high) ∧
    decode (.seq (inWord 0x1D base).seqWord) = .ok (.hold .gain .low) ∧
    decode (.seq (inWord 0x12 base).seqWord) = .ok .samp ∧ decode (.seq (inWord 0x13 base).seqWord) = .ok .shin := by decide

theorem test_witness_StepRunsTheDecodedInstruction :
    highHold.params.ok = true ∧ highHold.inp.rst = false ∧ highHold.meaningless? = none ∧ highHold.stopped = false ∧
      decode (.seq highHold.seqWord) = .ok (.hold .data .high) := by decide

theorem test_witness_ConfigRunsTheDecodedInstruction :
    (cfgInput 3 10 1000).cfgWe = true ∧ decode (.cfgw (Inputs.cfgWord (cfgInput 3 10 1000))) = .ok (.cfgB32 10 1000) ∧
      base.inp.cfgWe = false := by decide

theorem test_witness_RefusedStatesAreTheMeaninglessOnes :
    base.params.ok = true ∧ base.inp.rst = false ∧
    (inWord 0x1F base).meaningless? = some (.reservedWord 0x1F) ∧
    ({ base with nCur := 0 } : State).meaningless? = some .zeroGainCount ∧
    ({ base with holdCur := 0 } : State).meaningless? = some .zeroHold ∧
    ({ base with timeoutCur := 0 } : State).meaningless? = some .zeroTimeout ∧
    ({ base with bitIdx := 24 } : State).meaningless? = some .bitIdxOutOfRange ∧
    ({ gainSlot with pulseIdx := 3 } : State).meaningless? = some .pulseIdxOutOfRange ∧
    (inWord 0x08 { gainSlot with nCur := 2, pulseIdx := 2 }).meaningless? = some .pulseIdxOutOfRange ∧
    ({ base with pulseIdx := 3, nCur := 3 } : State).meaningless? = some .pulseIdxOutOfRange ∧
    ({ base with pulseIdx := 2, nCur := 2 } : State).meaningless? = some .pulseIdxOutOfRange ∧
    ({ base with pulseIdx := 2, nCur := 2, err := .readyTimeout } : State).meaningless? = none ∧
    (inWord 0x02 { base with pulseIdx := 2, nCur := 2 }).meaningless? = none ∧
    (inWord 0x02 { base with pulseIdx := 3, nCur := 2 }).meaningless? = some .pulseIdxOutOfRange ∧
    (inWord 0x01 { base with pulseIdx := 1, err := .hardwareFault }).meaningless? = some .pulseIdxOutOfRange ∧
    ({ gainSlot with pulseIdx := 2 } : State).meaningless? = none ∧
    ({ stoppedState with nCur := 0 } : State).meaningless? = some .zeroGainCount ∧
    ({ highHold with holdCnt := 0 } : State).meaningless? = none ∧
    refusalFrom (step { highHold with holdCnt := 0 }) = some .holdCounterZero ∧
    refusalFrom (step { base with params := { Config.params with settleTicks := 0 } }) = some .badParams := by decide

theorem test_witness_ResetTick :
    base.params.ok = true ∧ resetHigh.rst = true ∧ base.st.pulsing = false ∧ dataSlot.st.pulsing = true ∧
      base.pin = .driven false ∧ ({ dataSlot with pin := .free 7, inp := resetHigh } : State).pin = .free 7 ∧
      (ticked { dataSlot with pin := .free 7, inp := resetHigh }).map (·.pin) = some (.free 7) ∧
      (ticked { dataSlot with inp := resetHigh }).map (·.conv) = some dataSlot.conv.cut := by decide

theorem test_witness_ResetStateIsWhatResetLeaves :
    highHold.params.ok = true ∧ ({ highHold with inp := resetHigh } : State).inp.rst = true := by decide

theorem test_witness_TicksRoundUp :
    0 < Config.params.tClkNum ∧ 0 < Config.params.tClkDen ∧ (0 : Nat) < 1 ∧
      1 < ({ Config.params with tClkDen := 10 } : Params).ticks 1 1 ∧
      ({ Config.params with tClkNum := 3 } : Params).ticks 1 1 = 1 := by decide

theorem test_witness_StoppedSequencerDoesNothing :
    Legal stoppedState ∧ stoppedState.stopped = true ∧ stoppedState.inp.rst = false := by decide

theorem test_witness_SethDrivesTheClockHigh :
    dataSlot.inp.pinFault = false ∧ ({ dataSlot with inp := pinFails } : State).inp.pinFault = true := by decide

theorem test_witness_SetlDrivesTheClockLow :
    (inWord 0x1C base).inp.pinFault = false ∧ ({ inWord 0x1C base with inp := pinFails } : State).inp.pinFault = true := by
  decide

theorem test_witness_HoldCountsDown :
    1 < highHold.holdCnt.toNat ∧ ({ highHold with holdCnt := 65535 } : State).holdCnt.toNat = 65535 ∧ base.holdCnt = 0 := by
  decide

theorem test_witness_HoldEndsIntoTheNextSlot :
    lastLowHold.holdCnt = 1 ∧ lastLowHold.bitIdx = 23 ∧ ({ lastLowHold with bitIdx := 22 } : State).bitIdx.toNat < 23 ∧
    ({ lastLowHold with pulseIdx := 2, nCur := 3 } : State).pulseIdx.toNat + 1 = 3 ∧
    lastLowHold.conv.synced = true ∧ lastLowHold.conv.cut.synced = false ∧
    ({ lastLowHold with pulseIdx := 1, nCur := 3 } : State).pulseIdx.toNat + 1 < 3 := by decide

theorem test_witness_HoldLastsItsCounter :
    Legal (steady Inputs.quiet 2 highHold) ∧ highHold.stopped = false ∧
      decode (.seq highHold.seqWord) = .ok (.hold .data .high) ∧
      ∀ j < highHold.holdCnt.toNat, ((steady Inputs.quiet 2 highHold).inputAt j).rst = false :=
  ⟨by decide, by decide, by decide, fun j hj => by
    rw [steady_inputAt]
    · rfl
    · exact Nat.le_of_lt hj⟩

theorem test_witness_RdyWaitsForReady :
    base.params.readyMode = .poll ∧ pinFails.pinFault = true ∧ Inputs.quiet.pinFault = false ∧ Inputs.quiet.data = false ∧
    dataHigh.pinFault = false ∧ dataHigh.data = true ∧
    ({ base with readyCnt := 998 } : State).readyCnt.toNat + 1 < base.timeoutCur.toNat ∧
    base.timeoutCur.toNat ≤ ({ base with readyCnt := 999 } : State).readyCnt.toNat + 1 ∧
    settling.params.readyMode = .fixedDelay ∧
    settling.params.settleTicks ≤ ({ settling with readyCnt := 3 } : State).readyCnt.toNat + 1 ∧
    ({ settling with readyCnt := 2 } : State).readyCnt.toNat + 1 < settling.params.settleTicks := by decide

theorem test_witness_SampLatchesData :
    (inWord 0x12 base).inp.pinFault = false ∧ ({ inWord 0x12 base with inp := pinFails } : State).inp.pinFault = true := by
  decide

theorem test_witness_AssembleReadsMsbFirst : (List.replicate 24 true).length = 24 := by decide

theorem test_witness_SignExtensionLaws :
    (0x7FFFFF : RawSample).getLsbD 23 = false ∧ (0x800000 : RawSample).getLsbD 23 = true ∧ (25 : Nat) ≤ 25 ∧
      signExtendRaw 0x800000 = signExtendRaw 0x800000 := by decide

theorem test_witness_ShinShiftsMsbFirst : (List.replicate 24 true).length ≤ 24 ∧ ([] : List Bool).length ≤ 24 := by decide

theorem test_witness_EmitDeliversTheSample :
    Instr.samp ≠ Instr.emit ∧ (executed .samp (inWord 0x12 base)).isSome = true := by decide

theorem test_witness_HostReadNeedsAnEmit :
    resetHigh.rst = true ∧ (ticked { inWord 0x12 base with inp := resetHigh }).isSome = true ∧
      (executed .emit base).isSome = true ∧
      (decode (.seq (inWord 0x09 base).seqWord) = .ok .emit ∧ (ticked (inWord 0x09 base)).isSome = true) ∧
      (decode (.seq dataSlot.seqWord) ≠ .ok .emit ∧ (ticked dataSlot).isSome = true ∧ delivered dataSlot.history = false) ∧
      (stoppedState.stopped = true ∧ (ticked { stoppedState with history := [.reset, .emit 5, .stop] }).isSome = true ∧
        delivered [.reset, .emit 5, .stop] = true) ∧ base.inp.rst = false ∧ dataSlot.stopped = false := by decide

theorem test_witness_CancHonoursCancellation : cancelHigh.cancel = true ∧ Inputs.quiet.cancel = false := by decide

theorem test_witness_CfgWritesTheThreeRegisters :
    WellFormed (.cfgA128 1 1) = true ∧ WellFormed (.cfgA64 65535 4294967295) = true ∧ WellFormed (.cfgB32 1 1) = true ∧
      WellFormed (.cfgA128 0 1) = false ∧ WellFormed (.cfgA64 1 0) = false ∧ WellFormed (.cfgB32 0 0) = false := by decide

theorem test_witness_ProtocolViolationOnlyAnswersTheHost :
    CfgRejected { base with inp := cfgInput 0 10 1000 } ∧ CfgRejected { base with inp := cfgInput 1 0 1000 } ∧
      CfgRejected { base with inp := cfgInput 1 1 0 } := by decide

theorem test_witness_ConfigurationPortsInATick :
    (ticked { base with inp := cfgInput 1 1 1 }).isSome = true ∧ CfgAccepted { base with inp := cfgInput 1 1 1 } ∧
    (ticked { base with inp := cfgInput 0 1 1 }).isSome = true ∧ CfgRejected { base with inp := cfgInput 0 1 1 } ∧
    (ticked base).isSome = true ∧ base.inp.cfgWe = false ∧ base.inp.rst = false := by decide

theorem test_witness_LatgMissesTheSameTicksCfg :
    Legal (inWord 0x01 { base with inp := cfgInput 3 1 1000 }) ∧ base.stopped = false ∧ (cfgInput 3 1 1000).rst = false ∧
      (inWord 0x01 base).st = .idle ∧ (inWord 0x01 base).ph = 1 ∧ CfgAccepted { base with inp := cfgInput 3 1 1000 } := by
  decide

theorem test_witness_CfgDoesNotDisturbTheSequencer :
    (ticked dataSlot).isSome = true ∧ (ticked (withCfgPorts true 0 1 1 dataSlot)).isSome = true := by decide

theorem test_witness_HardwareFaultAbortsTheAttempt :
    accessesPin .poll (.seth .data) = true ∧ accessesPin .poll (.setl .gain) = true ∧ accessesPin .poll .samp = true ∧
      accessesPin .poll .rdy = true ∧ pinFails.pinFault = true ∧ (inWord 0x02 base).st.pulsing = false ∧
      dataSlot.st.pulsing = true ∧
      (executed .rdy (inWord 0x02 { base with inp := pinFails })).map (·.conv) = some base.conv ∧
      (executed .samp (inWord 0x12 { base with inp := pinFails })).map (·.conv) = some base.conv.cut := by decide

theorem test_witness_PinFaultIgnoredWithoutAPinAccess :
    accessesPin .poll (.hold .data .high) = false ∧ accessesPin .fixedDelay .rdy = false ∧
      accessesPin .poll .canc = false := by decide

theorem test_witness_DataIgnoredOutsideSampAndRdy :
    readsData .poll (.seth .gain) = false ∧ readsData .fixedDelay .rdy = false := by decide

theorem test_witness_CancelReadByCancOnly : Instr.samp ≠ Instr.canc := by decide

theorem test_witness_FaultFirstAndCfgIndependent :
    Legal (inWord 0x02 { base with inp := { cfgInput 0 1 1 with pinFault := true, data := true } }) ∧
      decode (.seq (inWord 0x02 base).seqWord) = .ok .rdy ∧ accessesPin base.params.readyMode .rdy = true ∧
      CfgRejected { base with inp := { cfgInput 0 1 1 with pinFault := true, data := true } } ∧ base.stopped = false := by
  decide

theorem test_witness_ResetIsLegal :
    Config.params.ok = true ∧ ({ Config.params with readyTimeoutReset := 4294967295, settleTicks := 4294967296 } : Params).ok = true ∧
      ({ Config.params with tClkDen := 65536 } : Params).ok = false := by decide

theorem test_witness_StepKeepsLegal :
    Instr.hold .data .low ≠ Instr.hold .gain .low ∧ LegalAsWritten gainSlot ∧ (ticked gainSlot).isSome = true ∧
    LegalAsWritten (inWord 0x01 { base with nCur := 3, pulseIdx := 2, cfgGain := 2 }) ∧
    (ticked (inWord 0x01 { base with nCur := 3, pulseIdx := 2, cfgGain := 2 })).isSome = true ∧
    Legal dataSlot ∧ (ticked dataSlot).isSome = true ∧ Legal highHold ∧ (ticked highHold).isSome = true := by
  (repeat' apply And.intro) <;> decide
theorem test_witness_LegalStatesAlwaysStep : Legal gainSlot ∧ Legal base ∧ Legal settling ∧ Legal early := by
  (repeat' apply And.intro) <;> decide
theorem test_witness_LiteralPulseIdxBound :
    LegalAsWritten (inWord 0x01 { base with nCur := 3, pulseIdx := 2, cfgGain := 2 }) ∧
      (ticked (inWord 0x01 { base with nCur := 3, pulseIdx := 2, cfgGain := 2 })).isSome = true := by decide

theorem test_witness_SuccessorsAreTheTables :
    Legal highHold ∧ highHold.inp.rst = false ∧ highHold.stopped = false ∧ (ticked highHold).isSome = true := by decide

theorem test_witness_ClockLowInIdleAndSignExtend :
    Legal (inWord 0x1C { gainSlot with clock := true, inp := pinFails }) ∧
      (ticked (inWord 0x1C { gainSlot with clock := true, inp := pinFails })).map (·.st) = some .idle ∧
    Legal (inWord 0x1D { gainSlot with holdCnt := 1, pulseIdx := 2 }) ∧
      (ticked (inWord 0x1D { gainSlot with holdCnt := 1, pulseIdx := 2 })).map (·.st) = some .signExtend := by
  (repeat' apply And.intro) <;> decide
theorem test_witness_FieldsChangeByTheirWritersOnly :
    dataSlot.inp.rst = false ∧ dataSlot.stopped = false ∧ decode (.seq dataSlot.seqWord) = .ok (.seth .data) ∧
      (ticked dataSlot).isSome = true := by decide

theorem test_witness_AbortKeepsSampleAndConfiguration :
    decode (.seq dataSlot.seqWord) = .ok (.seth .data) ∧ accessesPin dataSlot.params.readyMode (.seth .data) = true ∧
      pinFails.rst = false ∧ pinFails.pinFault = true ∧ dataSlot.stopped = false ∧
      (ticked { dataSlot with inp := pinFails }).isSome = true := by decide

theorem test_witness_StrobesMarkTheirTicks :
    Legal (inWord 0x09 { base with bitIdx := 23 }) ∧
      (ticked (inWord 0x09 { base with bitIdx := 23 })).map (·.outputs.sampleValidO) = some true ∧
    Legal (inWord 0x02 { base with readyCnt := 999, inp := dataHigh }) ∧
      (ticked (inWord 0x02 { base with readyCnt := 999, inp := dataHigh })).map
        (fun t => (t.outputs.errValidO, t.outputs.errO)) = some (true, 2) ∧
    Legal { dataSlot with inp := pinFails } ∧
      (ticked { dataSlot with inp := pinFails }).map (fun t => (t.outputs.errValidO, t.outputs.errO)) = some (true, 1) ∧
    Legal { base with inp := cfgInput 0 1 1 } ∧
      (ticked { base with inp := cfgInput 0 1 1 }).map (·.outputs.cfgRejO) = some true := by
  (repeat' apply And.intro) <;> decide

theorem test_witness_CancellationOnlyAtTheBoundary :
    Legal { base with inp := cancelHigh } ∧ base.stopped = false ∧
      (ticked { base with inp := cancelHigh }).map (·.stopped) = some true := by decide

theorem test_witness_HistoryOnlyGrows : (ticked dataSlot).isSome = true := by decide

/-- Mid-frame: the first bit is read and not yet shifted in. -/
def midFrame : State :=
  inWord 0x13 { base with clock := true, bitLatch := true, history := [.reset, .poll false, .ckHi, .hold 1, .rd true] }

theorem test_witness_StepKeepsHistoryLegal :
    Legal midFrame ∧ HistoryLegal midFrame ∧ (ticked midFrame).isSome = true :=
  ⟨by decide, ⟨{ bits := [true], rises := 1, level := .highHeld }, by decide,
    ⟨by decide, by decide, by decide, fun _ => by decide, fun h => absurd h (by decide)⟩⟩, by decide⟩

/-- A frame of ones and one gain pulse. -/
def frameOfOnes : List Event :=
  [.reset, .poll false] ++ (List.replicate 24 (bitEvents .afterHighHold 1 true)).flatten ++ pulseEvents 1

set_option maxRecDepth 8000 in
theorem test_witness_EveryEmitFollowsItsFrame : replay (frameOfOnes ++ [.emit 0xFFFFFFFF]) ≠ none := by decide

theorem test_witness_PulseInAGainSlot :
    Legal (steady dataHigh 10 gainSlot) ∧ gainSlot.stopped = false ∧ gainSlot.st = .gainSelect ∧ gainSlot.ph = 0 ∧
      gainSlot.pulseIdx.toNat + 1 < gainSlot.nCur.toNat ∧
      Legal (steady dataHigh 10 { gainSlot with pulseIdx := 2 }) ∧
      ({ gainSlot with pulseIdx := 2 } : State).pulseIdx.toNat + 1 = gainSlot.nCur.toNat ∧
      Quiet (steady dataHigh 10 gainSlot) (gainSlotTicks gainSlot.holdCur.toNat) :=
  ⟨by decide, by decide, by decide, by decide, by decide, by decide, by decide,
    fun j hj => steady_quiet dataHigh 10 gainSlot rfl rfl j (Nat.lt_of_lt_of_le hj (by decide))⟩

theorem test_witness_BitCycleInADataSlot :
    Legal (steady dataHigh 8 dataSlot) ∧ dataSlot.stopped = false ∧ dataSlot.st = .pulseTrain ∧ dataSlot.ph = 0 ∧
      dataSlot.bitIdx.toNat < 23 ∧ Legal (steady dataHigh 8 { dataSlot with bitIdx := 23 }) ∧
      Quiet (steady dataHigh 8 dataSlot) (dataSlotTicks dataSlot.holdCur.toNat) ∧
      ((steady dataHigh 8 dataSlot).inputAt (sampleTick dataSlot.params.samplePoint dataSlot.holdCur.toNat)).data = true :=
  ⟨by decide, by decide, by decide, by decide, by decide, by decide,
    fun j hj => steady_quiet dataHigh 8 dataSlot rfl rfl j (Nat.lt_of_lt_of_le hj (by decide)), by decide⟩

/-- The first data slot of a frame, whatever `raw` held. -/
def firstSlot : State := inWord 0x10 { base with raw := 0xABCDEF }

theorem test_witness_TrainAssemblesTheSample :
    Legal (steady dataHigh 144 firstSlot) ∧ firstSlot.stopped = false ∧ firstSlot.st = .pulseTrain ∧ firstSlot.ph = 0 ∧
      firstSlot.bitIdx = 0 ∧ Quiet (steady dataHigh 144 firstSlot) (24 * dataSlotTicks firstSlot.holdCur.toNat) ∧
      ∀ k < 24, ((steady dataHigh 144 firstSlot).inputAt (k * dataSlotTicks firstSlot.holdCur.toNat +
        sampleTick firstSlot.params.samplePoint firstSlot.holdCur.toNat)).data = (0xFFFFFF : RawSample).getLsbD (23 - k) :=
  ⟨by decide, by decide, by decide, by decide, by decide, steady_quiet dataHigh 144 firstSlot rfl rfl, fun k hk => by
    have he : dataSlotTicks firstSlot.holdCur.toNat = 6 := by decide
    have hs : sampleTick firstSlot.params.samplePoint firstSlot.holdCur.toNat = 2 := by decide
    rw [he, hs, steady_inputAt dataHigh 144 firstSlot (by omega)]
    have h : ∀ k < 24, true = (0xFFFFFF : RawSample).getLsbD (23 - k) := by decide
    exact h k hk⟩

theorem test_witness_GainSelectIssuesNPulses :
    Legal (steady dataHigh 12 gainSlot) ∧ gainSlot.stopped = false ∧ gainSlot.st = .gainSelect ∧ gainSlot.ph = 0 ∧
      gainSlot.pulseIdx = 0 ∧ gainSlot.conv.synced = true ∧ gainSlot.nCur = 3 ∧
      Quiet (steady dataHigh 12 gainSlot) (gainSlot.nCur.toNat * gainSlotTicks gainSlot.holdCur.toNat) :=
  ⟨by decide, by decide, by decide, by decide, by decide, by decide, by decide, steady_quiet dataHigh 12 gainSlot rfl rfl⟩

/-- One and two gain pulses, a frame already cut in the second. -/
theorem test_witness_GainSelectIssuesNPulses_fewer :
    Legal (steady dataHigh 4 { gainSlot with nCur := 1 }) ∧
      Quiet (steady dataHigh 4 { gainSlot with nCur := 1 }) ((1 : GainCode).toNat * gainSlotTicks gainSlot.holdCur.toNat) ∧
    Legal (steady dataHigh 8 { gainSlot with nCur := 2, conv := gainSlot.conv.cut }) ∧
      Quiet (steady dataHigh 8 { gainSlot with nCur := 2, conv := gainSlot.conv.cut })
        ((2 : GainCode).toNat * gainSlotTicks gainSlot.holdCur.toNat) :=
  ⟨by decide, steady_quiet dataHigh 4 _ rfl rfl, by decide, steady_quiet dataHigh 8 _ rfl rfl⟩

theorem test_witness_WaitEndsReady :
    Legal (steady Inputs.quiet 1 (inWord 0x02 base)) ∧ (inWord 0x02 base).readyCnt = 0 ∧
      ((inWord 0x02 base).stopped = false ∧ (inWord 0x02 base).st = .idle ∧ (inWord 0x02 base).ph = 2) ∧
      Quiet (steady Inputs.quiet 1 (inWord 0x02 base)) 1 ∧ ReadyAfter (steady Inputs.quiet 1 (inWord 0x02 base)) 0 1 1000 ∧
    Legal (steady dataHigh 4 (inWord 0x02 settling)) ∧ Quiet (steady dataHigh 4 (inWord 0x02 settling)) 4 ∧
      ReadyAfter (steady dataHigh 4 (inWord 0x02 settling)) 0 4 1000 :=
  ⟨by decide, by decide, by decide, steady_quiet _ 1 _ rfl rfl, by decide, by decide, steady_quiet _ 4 _ rfl rfl, by decide⟩

/-- A wait with a timeout of 3 polls. -/
def shortWait : State := inWord 0x02 { base with timeoutCur := 3 }

theorem test_witness_WaitTimesOut :
    Legal (steady dataHigh 3 shortWait) ∧ shortWait.stopped = false ∧ shortWait.st = .idle ∧ shortWait.ph = 2 ∧
      shortWait.readyCnt = 0 ∧ shortWait.params.readyMode = .poll ∧ Quiet (steady dataHigh 3 shortWait) shortWait.timeoutCur.toNat ∧
      ∀ j < shortWait.timeoutCur.toNat, ((steady dataHigh 3 shortWait).inputAt j).data = true :=
  ⟨by decide, by decide, by decide, by decide, by decide, by decide, steady_quiet dataHigh 3 shortWait rfl rfl, by decide⟩

theorem test_witness_WaitIsBounded :
    Legal (steady pinFails 3 shortWait) ∧ waitLimit shortWait = 3 ∧
      (∀ j < 3, ((steady pinFails 3 shortWait).inputAt j).rst = false) ∧
    Legal (steady dataHigh 4 (inWord 0x02 settling)) ∧ waitLimit (inWord 0x02 settling) = 4 ∧
      ∀ j < 4, ((steady dataHigh 4 (inWord 0x02 settling)).inputAt j).rst = false := by
  (repeat' apply And.intro) <;> decide
theorem test_witness_CompleteCycle :
    Legal (steady Inputs.quiet 154 base) ∧ base.stopped = false ∧ base.st = .idle ∧ base.ph = 0 ∧ Inputs.quiet.cancel = false ∧
      (ticked (steady Inputs.quiet 154 base)).map (fun u => (u.cfgGain, u.cfgHold, u.cfgTimeout)) = some (1, 1, 1000) ∧
      cycleTicks 1 1 1 = 154 ∧ Quiet (steady Inputs.quiet 154 base) 154 ∧ ReadyAfter (steady Inputs.quiet 154 base) 2 1 1000 ∧
      base.conv.synced = true ∧
      ∀ k < 24, ((steady Inputs.quiet 154 base).inputAt (cycleSampleTick base.params.samplePoint 1 1 k)).data =
        (0 : RawSample).getLsbD (23 - k) :=
  ⟨by decide, by decide, by decide, by decide, by decide, by decide, by decide, steady_quiet _ 154 _ rfl rfl, by decide,
    by decide, fun k hk => by
    have he : cycleSampleTick base.params.samplePoint 1 1 k = 3 + 1 + k * 6 + 2 := rfl
    rw [he, steady_inputAt Inputs.quiet 154 base (by omega)]
    simp [Inputs.quiet]⟩

end Sys2Proof.Tests
end

section
/-! SUPPORT. The facts about primitives, CFG and the tick that the statements about the state share. -/

namespace Sys2Proof.Proofs

open Sys2Proof.Machine Sys2Proof.Safety Sys2Proof.Laws

/-! ## The tick, branch by branch -/

theorem step_stopped {s : State} (hp : s.params.ok = true) (hr : s.inp.rst = false) (hm : s.meaningless? = none)
    (hs : s.stopped = true) : step s = .next (endTick (afterConfig (beginTick s))) := by
  rw [step_agents hp hr hm, runSequencer_stopped (by simpa using hs), andThen_next]

theorem step_exec {s u : State} {i : Instr} (hp : s.params.ok = true) (hr : s.inp.rst = false)
    (hm : s.meaningless? = none) (hs : s.stopped = false) (hd : decode (.seq s.seqWord) = .ok i)
    (hu : exec i (beginTick s) = .next u) : step s = .next (endTick (afterConfig u)) := by
  rw [step_agents hp hr hm, runSequencer_exec (s := beginTick s) (by simpa using hs) hd, hu, andThen_next]

/-- `step_cases` with the executed primitive given by its word and its effect. -/
theorem step_effect {s t : State} (h : step s = .next t) :
    s.params.ok = true ∧
      ((s.inp.rst = true ∧ t = endTick (applyReset s)) ∨
        (s.inp.rst = false ∧ s.stopped = true ∧ t = endTick (afterConfig (beginTick s))) ∨
        (s.inp.rst = false ∧ s.stopped = false ∧ ∃ i u, decode (.seq s.seqWord) = .ok i ∧ Selects s.st s.ph i ∧
          Effect i (beginTick s) u ∧ t = endTick (afterConfig u))) := by
  obtain ⟨hp, ⟨hr, ht⟩ | ⟨hr, -, hs, ht⟩ | ⟨hr, -, hs, i, u, hd, hu, ht⟩⟩ := step_cases h
  · exact ⟨hp, .inl ⟨hr, ht⟩⟩
  · exact ⟨hp, .inr (.inl ⟨hr, hs, ht⟩)⟩
  · exact ⟨hp, .inr (.inr ⟨hr, hs, i, u, hd, decode_selects hd, exec_effect hu, ht⟩)⟩

/-- A tick without reset of a running sequencer is the effect of the primitive `seq` selects, then CFG. -/
theorem step_effect_of_decode {s t : State} {i : Instr} (hr : s.inp.rst = false) (hs : s.stopped = false)
    (hd : decode (.seq s.seqWord) = .ok i) (h : step s = .next t) :
    ∃ u, Selects s.st s.ph i ∧ Effect i (beginTick s) u ∧ t = endTick (afterConfig u) := by
  obtain ⟨-, ⟨hr', -⟩ | ⟨-, hs', -⟩ | ⟨-, -, j, u, hd', hw, hu, ht⟩⟩ := step_effect h
  · simp [hr] at hr'
  · simp [hs] at hs'
  · cases hd.symm.trans hd'
    exact ⟨u, hw, hu, ht⟩

/-! ## What no primitive of the sequencer touches -/

theorem effect_inp {i : Instr} {s t : State} (h : Effect i s t) : t.inp = s.inp := by cases h <;> simp

theorem effect_params {i : Instr} {s t : State} (h : Effect i s t) : t.params = s.params := by cases h <;> simp

/-- The configuration registers and `cfg_rej_o` are CFG's: no sequencer primitive writes them (R20, R190). -/
theorem effect_cfg {st : St} {ph : BitVec 3} {i : Instr} {s t : State} (hw : Selects st ph i) (h : Effect i s t) :
    t.cfgGain = s.cfgGain ∧ t.cfgHold = s.cfgHold ∧ t.cfgTimeout = s.cfgTimeout ∧ t.cfgRej = s.cfgRej := by
  cases h with
  | cfgA128 | cfgA64 | cfgB32 => cases hw
  | _ => exact ⟨rfl, rfl, rfl, rfl⟩

/-! ## CFG's part of a tick -/

theorem cfgRejected_iff (s : State) :
    CfgRejected s ↔ s.inp.cfgWe = true ∧ legalConfig s.inp.cfgGain s.inp.cfgHold s.inp.cfgTimeout = false := by
  simp only [CfgRejected, ← Bool.not_eq_true, legalConfig_iff]
  tauto

theorem afterConfig_cfg (s : State) :
    ((afterConfig s).cfgGain = s.cfgGain ∧ (afterConfig s).cfgHold = s.cfgHold ∧
      (afterConfig s).cfgTimeout = s.cfgTimeout) ∨ CfgAccepted s := by
  rcases afterConfig_cases s with h | ⟨hw, hl, -⟩ | ⟨-, -, h⟩
  · exact .inl (by rw [h]; exact ⟨rfl, rfl, rfl⟩)
  · exact .inr ⟨hw, (legalConfig_iff ..).1 hl⟩
  · exact .inl (by rw [h]; exact ⟨rfl, rfl, rfl⟩)

theorem afterConfig_cfgRej_iff (s : State) :
    (afterConfig s).cfgRej = true ↔ s.cfgRej = true ∨ CfgRejected s := by
  rw [cfgRejected_iff]
  unfold afterConfig
  cases hw : s.inp.cfgWe with
  | false => simp
  | true =>
    cases hl : legalConfig s.inp.cfgGain s.inp.cfgHold s.inp.cfgTimeout with
    | true => simp [writeConfig_legal hl]
    | false => simp [writeConfig_illegal hl]

/-- CFG neither delivers a sample nor takes one back. -/
@[simp] theorem delivered_afterConfig (s : State) : delivered (afterConfig s).history = delivered s.history := by
  rcases afterConfig_cases s with h | ⟨-, -, h⟩ | ⟨-, -, h⟩ <;> rw [h]
  · exact delivered_append _ _
  · exact delivered_append _ _

end Sys2Proof.Proofs
end

section
/-! SUPPORT. `Legal` clause by clause: each clause of R45, R27 and R28 is kept by every primitive of the sequencer. -/

namespace Sys2Proof.Proofs

open Sys2Proof.Machine Sys2Proof.Safety Sys2Proof.Laws

/-! ## Words -/

/-- The word a primitive is fetched from (R91); a CFG form has none. -/
def FetchedAt (i : Instr) (st : St) (ph : BitVec 3) : Prop :=
  match i with
  | .canc => st = .idle ∧ ph = 0
  | .latg => st = .idle ∧ ph = 1
  | .rdy => st = .idle ∧ ph = 2
  | .clr => st = .idle ∧ ph = 3
  | .sext => st = .signExtend ∧ ph = 0
  | .emit => st = .signExtend ∧ ph = 1
  | .seth g => st = g.st ∧ ph = 0
  | .hold g .high => st = g.st ∧ ph = 1
  | .hold g .low => st = g.st ∧ ph = 5
  | .samp => st = .pulseTrain ∧ ph = 2
  | .shin => st = .pulseTrain ∧ ph = 3
  | .setl g => st = g.st ∧ ph = 4
  | .cfgA128 _ _ => False
  | .cfgA64 _ _ => False
  | .cfgB32 _ _ => False

theorem selects_fetchedAt {st : St} {ph : BitVec 3} {i : Instr} (h : Selects st ph i) : FetchedAt i st ph := by
  cases h <;> exact ⟨rfl, rfl⟩

@[simp] theorem clockHighWord_idle (ph : BitVec 3) : clockHighWord .idle ph = false := rfl
@[simp] theorem clockHighWord_signExtend (ph : BitVec 3) : clockHighWord .signExtend ph = false := rfl

@[simp] theorem clockHighWord_zero (st : St) : clockHighWord st 0#3 = false := by cases st <;> rfl

theorem clockHighWord_slot (g : Slot) (ph : BitVec 3) :
    clockHighWord g.st ph = (decide (1 ≤ ph.toNat) && decide (ph.toNat ≤ 4)) := by cases g <;> rfl

theorem clockHighWord_afterSeth (p : SamplePoint) (g : Slot) : clockHighWord g.st (phaseAfterSeth p g) = true := by
  cases p <;> cases g <;> rfl

theorem clockHighWord_afterSamp (p : SamplePoint) : clockHighWord .pulseTrain (phaseAfterSamp p) = true := by
  cases p <;> rfl

theorem clockHighWord_afterDataHigh (p : SamplePoint) : clockHighWord .pulseTrain (phaseAfterDataHigh p) = true := by
  cases p <;> rfl

@[simp] theorem holdLoadedWord_idle (p : SamplePoint) (ph : BitVec 3) : holdLoadedWord p .idle ph = false := rfl
@[simp] theorem holdLoadedWord_signExtend (p : SamplePoint) (ph : BitVec 3) :
    holdLoadedWord p .signExtend ph = false := rfl

@[simp] theorem holdLoadedWord_zero (p : SamplePoint) (st : St) : holdLoadedWord p st 0#3 = false := by cases st <;> rfl
@[simp] theorem holdLoadedWord_three (p : SamplePoint) (st : St) : holdLoadedWord p st 3#3 = false := by
  cases st <;> rfl
@[simp] theorem holdLoadedWord_four (p : SamplePoint) (st : St) : holdLoadedWord p st 4#3 = false := by cases st <;> rfl

theorem holdLoadedWord_slot (p : SamplePoint) (g : Slot) (ph : BitVec 3) :
    holdLoadedWord p g.st ph = (ph == 1 || ph == 5 || (ph == 2 && p == .beforeHighHold)) := by cases g <;> rfl

theorem holdLoadedWord_afterSeth (p : SamplePoint) (g : Slot) :
    holdLoadedWord p g.st (phaseAfterSeth p g) = true := by cases p <;> cases g <;> rfl

/-- SAMP stands before or after the high hold, and neither loads nor empties the counter (R142). -/
theorem holdLoadedWord_afterSamp (p : SamplePoint) :
    holdLoadedWord p .pulseTrain (phaseAfterSamp p) = holdLoadedWord p .pulseTrain 2 := by cases p <;> rfl

theorem holdLoadedWord_afterDataHigh (p : SamplePoint) :
    holdLoadedWord p .pulseTrain (phaseAfterDataHigh p) = false := by cases p <;> rfl

/-! ## Sign extension -/

theorem rawIsNegative_eq_msb (raw : RawSample) : rawIsNegative raw = raw.msb := by
  have hmask : raw &&& 0x800000#24 = BitVec.twoPow 24 23 &&& raw := BitVec.and_comm _ _
  rw [rawIsNegative, BitVec.ofNat_eq_ofNat, hmask, BitVec.twoPow_and, BitVec.msb_eq_getLsbD_last]
  cases raw.getLsbD 23 <;> rfl

/-- The subtraction of R164 is sign extension to 32 bits (R98). -/
theorem signExtendRaw_eq_signExtend (raw : RawSample) : signExtendRaw raw = raw.signExtend 32 := by
  apply BitVec.eq_of_toNat_eq
  rw [signExtendRaw, rawIsNegative_eq_msb, BitVec.toNat_signExtend]
  have := raw.isLt
  cases h : raw.msb with
  | false => simp [BitVec.toNat_setWidth]
  | true =>
    simp only [if_true, BitVec.toNat_sub, BitVec.toNat_setWidth, BitVec.toNat_ofNat]
    omega

theorem sampleLegal_signExtendRaw (raw : RawSample) :
    -8388608 ≤ (signExtendRaw raw).toInt ∧ (signExtendRaw raw).toInt ≤ 8388607 := by
  rw [signExtendRaw_eq_signExtend, BitVec.toInt_signExtend_of_le (by decide)]
  have hl := BitVec.le_toInt raw
  have hu := BitVec.toInt_lt (x := raw)
  norm_num at hl hu
  omega

/-! ## The clauses of `Legal`, one by one -/

section
variable {i : Instr} {s t : State}

theorem effect_keeps_word (hw : Selects s.st s.ph i) (h : Effect i s t) : ∃ j, Selects t.st t.ph j := by
  cases h with
  | cancStop | rdyWait | rdySettling | holdRunning => exact ⟨_, hw⟩
  | rdyFault | sethFault | sampFault | setlFault | rdyTimeout | emit => exact ⟨_, .canc⟩
  | cancGo => exact ⟨_, .latg⟩
  | latg => exact ⟨_, .rdy⟩
  | rdyReady | rdySettled => exact ⟨_, .clr⟩
  | clr | holdDataNext => exact ⟨_, .sethData⟩
  | sext => exact ⟨_, .emit⟩
  | seth g =>
    cases g with
    | gain => cases s.params.samplePoint <;> exact ⟨_, .holdGainHigh⟩
    | data =>
      cases s.params.samplePoint with
      | afterHighHold => exact ⟨_, .holdDataHigh⟩
      | beforeHighHold => exact ⟨_, .samp⟩
  | holdDataHigh =>
    cases s.params.samplePoint with
    | afterHighHold => exact ⟨_, .samp⟩
    | beforeHighHold => exact ⟨_, .shin⟩
  | holdGainHigh => exact ⟨_, .setlGain⟩
  | holdDataLast | holdGainNext => exact ⟨_, .sethGain⟩
  | holdGainLast => exact ⟨_, .sext⟩
  | samp =>
    cases s.params.samplePoint with
    | afterHighHold => exact ⟨_, .shin⟩
    | beforeHighHold => exact ⟨_, .holdDataHigh⟩
  | shin => exact ⟨_, .setlData⟩
  | setl g => cases g with
    | data => exact ⟨_, .holdDataLow⟩
    | gain => exact ⟨_, .holdGainLow⟩
  | cfgA128 | cfgA64 | cfgB32 => exact (selects_fetchedAt hw).elim

theorem effect_keeps_gains (hw : Selects s.st s.ph i) (h : Effect i s t) (hl : GainsLegal s) : GainsLegal t := by
  cases h with
  | latg => exact ⟨hl.2, hl.2⟩
  | cfgA128 | cfgA64 | cfgB32 => exact (selects_fetchedAt hw).elim
  | _ => exact hl

theorem effect_keeps_durations (hw : Selects s.st s.ph i) (h : Effect i s t) (hl : DurationsLegal s) :
    DurationsLegal t := by
  cases h with
  | latg =>
    obtain ⟨-, hhold, -, htimeout⟩ := hl
    exact ⟨hhold, hhold, htimeout, htimeout⟩
  | cfgA128 | cfgA64 | cfgB32 => exact (selects_fetchedAt hw).elim
  | _ => exact hl

/-- Every edge moves the clock and the word together; a wait, a hold and a sample keep both on one side (R45 (e)). -/
theorem effect_keeps_clock (hw : Selects s.st s.ph i) (h : Effect i s t) (hl : ClockLegal s) : ClockLegal t := by
  have hf := selects_fetchedAt hw
  unfold ClockLegal at hl ⊢
  cases h with
  | cancStop | rdyWait | rdySettling | holdRunning => exact hl
  | seth g => exact (clockHighWord_afterSeth _ g).symm
  | setl g => simp [clockHighWord_slot]
  | holdDataHigh => simp [hl, hf.1, hf.2, clockHighWord_slot, clockHighWord_afterDataHigh]
  | samp =>
    rw [clockHighWord_afterSamp, hl, hf.1, hf.2]
    rfl
  | shin | holdGainHigh =>
    rw [hl, hf.1, hf.2]
    rfl
  | rdyFault | sethFault | sampFault | setlFault => simp
  | cfgA128 | cfgA64 | cfgB32 => exact hf.elim
  | _ => simp [hl, hf.1, hf.2, clockHighWord_slot]

theorem effect_keeps_sample (hw : Selects s.st s.ph i) (h : Effect i s t) (hl : SampleLegal s) : SampleLegal t := by
  cases h with
  | sext => exact sampleLegal_signExtendRaw s.raw
  | cfgA128 | cfgA64 | cfgB32 => exact (selects_fetchedAt hw).elim
  | _ => exact hl

theorem effect_stopped_cases (h : Effect i s t) :
    t.stopped = s.stopped ∨ (i = .canc ∧ s.inp.cancel = true ∧ t.st = s.st ∧ t.ph = s.ph) := by
  cases h with
  | cancStop _ hc => exact .inr ⟨rfl, hc, rfl, rfl⟩
  | cfgA128 | cfgA64 | cfgB32 => simp
  | _ => exact .inl rfl

theorem effect_keeps_stopped (hw : Selects s.st s.ph i) (h : Effect i s t) (hs : s.stopped = false) :
    StoppedLegal t := by
  rcases effect_stopped_cases h with he | ⟨rfl, -, hst, hph⟩
  · intro ht
    rw [he, hs] at ht
    cases ht
  · rw [StoppedLegal, hst, hph]
    exact fun _ => selects_fetchedAt hw

theorem effect_keeps_err (h : Effect i s t) (hl : ErrLegal s) : ErrLegal t := by
  cases h with
  | rdyFault | sethFault | sampFault | setlFault | rdyTimeout | emit => exact ErrCode.noConfusion
  | cfgA128 | cfgA64 | cfgB32 => simpa [ErrLegal] using hl
  | _ => exact hl

theorem holdCounter_loaded (h : holdLoadedWord s.params.samplePoint s.st s.ph = true) :
    HoldCounterLegal s ↔ s.holdCnt ≠ 0 ∧ s.holdCnt.toNat ≤ s.holdCur.toNat := by rw [HoldCounterLegal, if_pos h]

theorem holdCounter_unloaded (h : holdLoadedWord s.params.samplePoint s.st s.ph = false) :
    HoldCounterLegal s ↔ s.holdCnt = 0 := by simp [HoldCounterLegal, h]

/-- SETH and SETL load the hold counter and the last tick of a HOLD empties it (R27, R120 to R122). -/
theorem effect_keeps_holdCounter (hw : Selects s.st s.ph i) (h : Effect i s t) (hc : s.holdCur ≠ 0)
    (hl : HoldCounterLegal s) : HoldCounterLegal t := by
  have hf := selects_fetchedAt hw
  cases h with
  | cancStop | rdyWait | rdySettling => exact hl
  | seth g =>
    refine (holdCounter_loaded ?_).2 ⟨hc, le_rfl⟩
    exact holdLoadedWord_afterSeth _ g
  | setl g => exact (holdCounter_loaded (by simp [holdLoadedWord_slot])).2 ⟨hc, le_rfl⟩
  | holdRunning g l _ h1 =>
    have hloaded : holdLoadedWord s.params.samplePoint s.st s.ph = true := by
      cases l <;> simp [hf.1, hf.2, holdLoadedWord_slot]
    obtain ⟨-, hle⟩ := (holdCounter_loaded hloaded).1 hl
    have hd : (s.holdCnt - 1).toNat = s.holdCnt.toNat - 1 := BitVec.toNat_sub_of_le (by bv_omega)
    refine (holdCounter_loaded (s := { s with holdCnt := s.holdCnt - 1 }) hloaded).2 ⟨?_, ?_⟩
    · exact fun h0 => absurd (hd.symm.trans (congrArg BitVec.toNat h0)) (Nat.sub_ne_zero_of_lt h1)
    · exact hd.trans_le ((Nat.sub_le _ _).trans hle)
  | samp =>
    unfold HoldCounterLegal at hl ⊢
    rw [hf.1, hf.2] at hl
    rwa [holdLoadedWord_afterSamp]
  | latg | cancGo | rdyReady | rdySettled | rdyTimeout | clr | sext | emit | shin =>
    have h0 := (holdCounter_unloaded (by simp [hf.1, hf.2])).1 hl
    exact (holdCounter_unloaded (by simp)).2 h0
  | holdDataHigh =>
    refine (holdCounter_unloaded ?_).2 rfl
    exact holdLoadedWord_afterDataHigh _
  | cfgA128 | cfgA64 | cfgB32 => exact hf.elim
  | _ => exact (holdCounter_unloaded (by simp)).2 rfl

theorem params_ok_iff (p : Params) :
    p.ok = true ↔ 0 < p.tClkNum ∧ 0 < p.tClkDen ∧ p.holdResetTicks < 65536 ∧ p.readyTimeoutReset ≠ 0 ∧
      0 < p.settleTicks ∧ p.settleTicks ≤ 4294967296 := by simp [Params.ok, and_assoc]

/-- R28 leaves room for a wait that has just begun: both limits are at least 1 (R92, R7). -/
theorem waitLimit_pos (hp : s.params.ok = true) (ht : s.timeoutCur ≠ 0) : 0 < waitLimit s := by
  cases hm : s.params.readyMode with
  | poll => simpa [waitLimit, hm] using BitVec.toNat_pos_of_ne_zero ht
  | fixedDelay =>
    obtain ⟨-, -, -, -, hset, -⟩ := (params_ok_iff _).1 hp
    simpa [waitLimit, hm] using hset

theorem effect_keeps_readyCounter (hw : Selects s.st s.ph i) (h : Effect i s t) (hp : s.params.ok = true)
    (ht : s.cfgTimeout ≠ 0) (hl : ReadyCounterLegal s) : ReadyCounterLegal t := by
  cases h with
  | latg => exact waitLimit_pos hp ht
  | rdyFault | sethFault | sampFault | setlFault | rdyTimeout => exact Nat.zero_lt_of_lt hl
  | rdyWait _ hm _ _ hc =>
    have hlt := (Nat.mod_le (s.readyCnt.toNat + 1) (2 ^ 32)).trans_lt hc
    simpa [ReadyCounterLegal, waitLimit, hm] using hlt
  | rdySettling _ hm hc =>
    have hlt := (Nat.mod_le (s.readyCnt.toNat + 1) (2 ^ 32)).trans_lt hc
    simpa [ReadyCounterLegal, waitLimit, hm] using hlt
  | cfgA128 | cfgA64 | cfgB32 => exact (selects_fetchedAt hw).elim
  | _ => exact hl

/-! ### Slots -/

/-- R45 (d) word for word: LATG alone breaks it, by latching a gain code that `pulse_idx` is not below. -/
theorem effect_pulseIdxBelow_iff (hw : Selects s.st s.ph i) (h : Effect i s t) (hl : PulseIdxBelowNCur s) :
    PulseIdxBelowNCur t ↔ i ≠ .latg ∨ s.pulseIdx.toNat < s.cfgGain.toNat := by
  have hpos : 0 < s.nCur.toNat := Nat.zero_lt_of_lt hl
  cases h with
  | latg => simp [PulseIdxBelowNCur]
  | rdyFault | sethFault | sampFault | setlFault | holdDataLast => simpa [PulseIdxBelowNCur] using hpos
  | holdGainNext _ _ hn =>
    have hlt : (s.pulseIdx + 1).toNat < s.nCur.toNat := by
      have hle : (s.pulseIdx + 1).toNat ≤ s.pulseIdx.toNat + 1 := by
        rw [BitVec.toNat_add]; exact Nat.mod_le _ _
      have : s.pulseIdx.toNat < s.nCur.toNat := hl
      omega
    simpa [PulseIdxBelowNCur] using hlt
  | cfgA128 | cfgA64 | cfgB32 => exact (selects_fetchedAt hw).elim
  | _ => simpa [PulseIdxBelowNCur] using hl

theorem effect_keeps_bitIdx (hw : Selects s.st s.ph i) (h : Effect i s t) (hle : s.bitIdx.toNat ≤ 23)
    (hend : s.st = .gainSelect ∨ s.st = .signExtend → s.bitIdx = 23) :
    t.bitIdx.toNat ≤ 23 ∧ (t.st = .gainSelect ∨ t.st = .signExtend → t.bitIdx = 23) := by
  have hf := selects_fetchedAt hw
  cases h with
  | cancStop | rdyWait | rdySettling | holdRunning => exact ⟨hle, hend⟩
  | rdyFault | sethFault | sampFault | setlFault | clr => simp
  | seth g | setl g => exact ⟨hle, fun hg => hend (by rw [hf.1]; exact hg)⟩
  | holdGainHigh | holdGainNext | holdGainLast => exact ⟨hle, fun _ => hend (.inl hf.1)⟩
  | sext => exact ⟨hle, fun _ => hend (.inr hf.1)⟩
  | holdDataLast _ _ hb => exact ⟨hle, fun _ => hb⟩
  | holdDataNext _ _ hb =>
    have hne : s.bitIdx.toNat ≠ 23 := fun he => hb (BitVec.eq_of_toNat_eq he)
    exact ⟨by rw [BitVec.toNat_add]; simp; omega, by simp⟩
  | cfgA128 | cfgA64 | cfgB32 => exact hf.elim
  | _ => exact ⟨hle, by simp⟩

/-- Where the last frame's count may stand beside a new `n_cur` it stays, and everywhere else it is below `n_cur` (log
entry 6). -/
theorem effect_keeps_pulseIdx (hw : Selects s.st s.ph i) (h : Effect i s t) (hn : s.nCur ≠ 0) (hl : SlotsLegal s) :
    t.pulseIdx.toNat < t.nCur.toNat ∨ t.pulseIdxStale := by
  have hf := selects_fetchedAt hw
  have hle := slots_pulseIdx_le hl
  have hbelow : PulseIdxBelowNCur s → i ≠ .latg → t.pulseIdx.toNat < t.nCur.toNat :=
    fun hb hi => (effect_pulseIdxBelow_iff hw h hb).2 (.inl hi)
  cases h with
  | cancStop | rdyWait | rdySettling | holdRunning => exact hl.2.2
  | rdyFault | sethFault | sampFault | setlFault | holdDataLast => exact .inl (BitVec.toNat_pos_of_ne_zero hn)
  | cancGo =>
    rcases hl.2.2 with hb | ⟨-, hp | ⟨-, h2 | he⟩⟩
    · exact .inl hb
    · simp [hf.1] at hp
    · simp [hf.2] at h2
    · exact .inr ⟨hle, .inr ⟨rfl, .inr he⟩⟩
  | latg | rdyReady | rdySettled => exact .inr ⟨hle, .inr ⟨rfl, .inl (by simp)⟩⟩
  | rdyTimeout _ hm => exact .inr ⟨hle, .inr ⟨rfl, .inr ⟨rfl, hm⟩⟩⟩
  | clr | holdDataHigh | holdDataNext | samp | shin => exact .inr ⟨hle, .inl rfl⟩
  | seth g | setl g =>
    cases g with
    | data => exact .inr ⟨hle, .inl rfl⟩
    | gain => exact .inl (hbelow (slots_pulseIdx_lt hl (.inl hf.1)) (by simp))
  | sext | emit => exact .inl (hbelow (slots_pulseIdx_lt hl (.inr hf.1)) (by simp))
  | holdGainHigh | holdGainNext | holdGainLast =>
    exact .inl (hbelow (slots_pulseIdx_lt hl (.inl hf.1)) (by simp))
  | cfgA128 | cfgA64 | cfgB32 => exact hf.elim

end
end Sys2Proof.Proofs
end

section
/-! SUPPORT. The statements about the state: reset, `Legal` and every tick. -/

namespace Sys2Proof.Proofs

open Sys2Proof.Machine Sys2Proof.Safety Sys2Proof.Laws

/-! ## Reset -/

theorem holdReset_toNat {p : Params} (h : p.ok = true) : p.holdReset.toNat = p.holdResetTicks := by
  obtain ⟨-, -, hlt, -⟩ := (params_ok_iff p).1 h
  exact Nat.mod_eq_of_lt hlt

theorem holdReset_ne_zero {p : Params} (h : p.ok = true) : p.holdReset ≠ 0 := fun h0 => by
  have hpos : 1 ≤ p.holdResetTicks := Nat.le_max_left _ _
  rw [← holdReset_toNat h, h0] at hpos
  exact absurd hpos (by decide)

/-- Settles O39: the registers reset to values in range as soon as the parameters are, and (Idle, 0) needs nothing else. -/
theorem resetIsLegal : Obligations.ResetIsLegal := by
  intro p hp
  have hhold := holdReset_ne_zero hp
  obtain ⟨-, -, -, htimeout, -⟩ := (params_ok_iff p).1 hp
  have hword : WordDefined (State.resetWith p) := selects_wordDefined .canc
  have hgains : GainsLegal (State.resetWith p) := by simp [State.resetWith, Config.gainN]
  have hbelow : PulseIdxBelowNCur (State.resetWith p) := by simp [PulseIdxBelowNCur, State.resetWith, Config.gainN]
  have hslots : SlotsLegal (State.resetWith p) := ⟨by simp [State.resetWith], by simp [State.resetWith], .inl hbelow⟩
  have hclock : ClockLegal (State.resetWith p) := by simp [ClockLegal, State.resetWith]
  have hsample : SampleLegal (State.resetWith p) := by simp [SampleLegal, State.resetWith]
  have hcounter : HoldCounterLegal (State.resetWith p) := by simp [HoldCounterLegal, State.resetWith]
  have hwait : ReadyCounterLegal (State.resetWith p) := waitLimit_pos hp htimeout
  exact ⟨⟨hp, hword, hgains, ⟨hhold, hhold, htimeout, htimeout⟩, hslots, hclock, hsample, fun _ => ⟨rfl, rfl⟩,
    ErrCode.noConfusion, hcounter, hwait⟩, hbelow⟩

/-- Settles O50: the history after reset is `Reset` alone, and the sequencer is in Idle. -/
theorem resetHistoryIsLegal : Obligations.ResetHistoryIsLegal := by
  intro p
  refine ⟨.closed, rfl, ?_⟩
  simp [FrameMatches, State.resetWith, FrameLog.closed, expectedLevel, expectedRises, expectedBits, St.pulsing]

/-- Settles O9: a reset tick is `applyReset`, whose fields are the reset column of R20. -/
theorem resetTick : Obligations.ResetTick := by
  intro s hp hr
  have hticks : s.params.holdReset.toNat = s.params.ticks 1 1 := holdReset_toNat hp
  have hcut : s.st.pulsing = true → cutOpenFrame s = s.conv.cut ∧ (cutOpenFrame s).synced = false :=
    fun h => by simp [cutOpenFrame_open h]
  have hdriven : ∀ v, s.pin = .driven v → s.pin.reset = .driven false := fun v h => by rw [h, reset_driven]
  have hfree : ∀ k, s.pin = .free k → s.pin.reset = .free k := fun k h => by rw [h, reset_free]
  refine ⟨_, step_reset hp hr, ?_⟩
  simpa [hticks] using ⟨fun h => cutOpenFrame_closed h, hcut, ⟨hdriven false, hdriven true⟩, hfree⟩

/-- Settles O10: a reset tick is `applyReset`, the state after reset up to converter, pin, history and inputs. -/
theorem resetStateIsWhatResetLeaves : Obligations.ResetStateIsWhatResetLeaves :=
  ⟨rfl, fun s hp hr => ⟨_, step_reset hp hr, by simp [SameSequencer, State.resetWith, Config.gainN], rfl, rfl, rfl⟩⟩

/-! ## Every tick keeps `Legal` -/

/-- The primitive of a running sequencer keeps `Legal`, clause by clause. -/
theorem effect_keeps_legal {i : Instr} {s t : State} (hw : Selects s.st s.ph i) (h : Effect i s t)
    (hs : s.stopped = false) (hl : Legal s) : Legal t := by
  obtain ⟨hp, -, hg, hd, hsl, hc, hsm, -, he, hh, hr⟩ := hl
  obtain ⟨j, hj⟩ := effect_keeps_word hw h
  obtain ⟨hb, hbe⟩ := effect_keeps_bitIdx hw h hsl.1 hsl.2.1
  exact ⟨by rw [effect_params h, hp], selects_wordDefined hj, effect_keeps_gains hw h hg, effect_keeps_durations hw h hd,
    ⟨hb, hbe, effect_keeps_pulseIdx hw h hg.1 hsl⟩, effect_keeps_clock hw h hc, effect_keeps_sample hw h hsm,
    effect_keeps_stopped hw h hs, effect_keeps_err h he, effect_keeps_holdCounter hw h hd.1 hh,
    effect_keeps_readyCounter hw h hp hd.2.2.2 hr⟩

/-- CFG writes legal configurations only (R95, R190). -/
theorem afterConfig_keeps_legal {s : State} (hl : Legal s) : Legal (afterConfig s) := by
  rcases afterConfig_cases s with h | ⟨-, hc, h⟩ | ⟨-, -, h⟩ <;> rw [h]
  · exact hl
  · obtain ⟨hg, hh, ht⟩ := (legalConfig_iff ..).1 hc
    obtain ⟨hp, hw, hgs, hd, hrest⟩ := hl
    exact ⟨hp, hw, ⟨hgs.1, hg⟩, ⟨hd.1, hh, hd.2.2.1, ht⟩, hrest⟩
  · exact hl

theorem applyReset_legal {s : State} (hp : s.params.ok = true) : LegalAsWritten (applyReset s) :=
  resetIsLegal s.params hp

theorem step_keeps_legal {s t : State} (hl : Legal s) (h : step s = .next t) : Legal t := by
  obtain ⟨hp, ⟨-, rfl⟩ | ⟨-, -, rfl⟩ | ⟨-, hs, i, u, -, hw, hu, rfl⟩⟩ := step_effect h
  · exact (applyReset_legal hp).1
  · exact afterConfig_keeps_legal (s := beginTick s) hl
  · exact afterConfig_keeps_legal (effect_keeps_legal (s := beginTick s) hw hu hs hl)

/-- R45 (d) word for word after a tick: kept, unless LATG latches a gain code that `pulse_idx` is not below. -/
theorem step_pulseIdxBelow_iff {s t : State} (hl : LegalAsWritten s) (h : step s = .next t) :
    PulseIdxBelowNCur t ↔
      s.inp.rst = true ∨ decode (.seq s.seqWord) ≠ .ok .latg ∨ s.pulseIdx.toNat < s.cfgGain.toNat := by
  obtain ⟨hp, ⟨hr, rfl⟩ | ⟨hr, hs, rfl⟩ | ⟨hr, -, i, u, hd, hw, hu, rfl⟩⟩ := step_effect h
  · exact iff_of_true (applyReset_legal hp).2 (.inl hr)
  · have hcanc : decode (.seq s.seqWord) = .ok .canc := by
      obtain ⟨⟨-, -, -, -, -, -, -, hstop, -⟩, -⟩ := hl
      obtain ⟨hst, hph⟩ := hstop hs
      rw [State.seqWord, hst, hph]
      rfl
    refine iff_of_true ?_ (.inr (.inl (by simp [hcanc])))
    simpa [PulseIdxBelowNCur] using hl.2
  · have hiff := effect_pulseIdxBelow_iff (s := beginTick s) hw hu hl.2
    simpa [PulseIdxBelowNCur, hr, hd] using hiff

theorem legalAsWritten_step_iff {s t : State} (hl : LegalAsWritten s) (h : step s = .next t) :
    LegalAsWritten t ↔
      s.inp.rst = true ∨ decode (.seq s.seqWord) ≠ .ok .latg ∨ s.pulseIdx.toNat < s.cfgGain.toNat := by
  rw [← step_pulseIdxBelow_iff hl h]
  exact and_iff_right (step_keeps_legal hl.1 h)

/-! ## Progress -/

/-- R27 keeps an empty hold counter out of every HOLD, the one refusal a primitive has (R122). -/
theorem legal_exec_next {i : Instr} {s : State} (hl : Legal s) (hd : decode (.seq s.seqWord) = .ok i) :
    ∃ u, exec i (beginTick s) = .next u := by
  refine (exec_outcome i (beginTick s)).resolve_right ?_
  rintro ⟨g, l, rfl, h0⟩
  obtain ⟨-, -, -, -, -, -, -, -, -, hh, -⟩ := hl
  have hf := selects_fetchedAt (decode_selects hd)
  have hloaded : holdLoadedWord s.params.samplePoint s.st s.ph = true := by
    cases l <;> simp [hf.1, hf.2, holdLoadedWord_slot]
  exact ((holdCounter_loaded hloaded).1 hh).1 h0

/-- Settles O41: a legal word is a defined one, and a legal HOLD has a loaded counter. -/
theorem legalStatesAlwaysStep : Obligations.LegalStatesAlwaysStep := by
  intro s hl
  have hp : s.params.ok = true := hl.1
  cases hr : s.inp.rst with
  | true => exact ⟨_, step_reset hp hr⟩
  | false =>
    have hm := legal_meaningful hl
    cases hs : s.stopped with
    | true => exact ⟨_, step_stopped hp hr hm hs⟩
    | false =>
      obtain ⟨i, hi⟩ := wordDefined_selects hl.2.1
      have hd : decode (.seq s.seqWord) = .ok i := selects_decode hi
      obtain ⟨u, hu⟩ := legal_exec_next hl hd
      exact ⟨_, step_exec hp hr hm hs hd hu⟩

/-- Program P2 in tick 164: LATG is about to latch `n_cur = 2` while `pulse_idx` still holds 2, the last frame's count. -/
def staleCount : State := { State.reset with ph := 1, nCur := 3, pulseIdx := 2, cfgGain := 2 }

/-- Refutes O42: the state of P2 before its LATG meets R45 word for word and the state after it does not. -/
theorem not_literalPulseIdxBound : ¬ Obligations.LiteralPulseIdxBound := by
  intro h
  have hl : LegalAsWritten staleCount := by decide
  obtain ⟨t, ht⟩ := legalStatesAlwaysStep staleCount hl.1
  exact absurd ((legalAsWritten_step_iff hl ht).1 (h _ _ hl ht)) (by decide)

/-- Settles O12: a stopped sequencer's tick is CFG alone. -/
theorem stoppedSequencerDoesNothing : Obligations.StoppedSequencerDoesNothing := by
  intro s hl hs hr
  refine ⟨_, step_stopped hl.1 hr (legal_meaningful hl) hs, by simp [SameSequencer], ?_, ?_⟩
  · exact afterConfig_sequencerHistory (beginTick s)
  · obtain ⟨-, -, -, -, -, hclk, -, hstop, -⟩ := hl
    obtain ⟨hst, hph⟩ := hstop hs
    have hlow : s.clock = false := by rw [hclk, hst]; rfl
    simp [hs, hst, hph, hlow]

end Sys2Proof.Proofs
end

section
/-! SUPPORT. Who reads `pulse_idx` (log entry 6), and the statement that every tick keeps the state legal. -/

namespace Sys2Proof.Proofs

open Sys2Proof.Machine Sys2Proof.Safety Sys2Proof.Laws

/-- An outcome up to `pulse_idx`. -/
def withoutPulseIdx (o : Host.Outcome State Fault Refusal) : Host.Outcome State Fault Refusal :=
  andThen o fun t => .next (withPulseIdx 0 t)

@[simp] theorem withoutPulseIdx_next (t : State) : withoutPulseIdx (.next t) = .next (withPulseIdx 0 t) := rfl

section
variable (k : BitVec 2) (s : State)

theorem execCanc_withPulseIdx : withoutPulseIdx (execCanc (withPulseIdx k s)) = withoutPulseIdx (execCanc s) := by
  unfold execCanc withPulseIdx
  cases s.inp.cancel <;> rfl

theorem driveClock_withPulseIdx (v : Bool) (e : Event) (g : Slot) (ph : BitVec 3) :
    withoutPulseIdx (driveClock v e g ph (withPulseIdx k s)) = withoutPulseIdx (driveClock v e g ph s) := by
  cases hf : s.inp.pinFault with
  | true => rw [driveClock_fault _ _ _ _ hf, driveClock_fault _ _ _ _ (by exact hf)]; rfl
  | false => rw [driveClock_ok _ _ _ _ hf, driveClock_ok _ _ _ _ (by exact hf)]; rfl

theorem execSamp_withPulseIdx : withoutPulseIdx (execSamp (withPulseIdx k s)) = withoutPulseIdx (execSamp s) := by
  cases hf : s.inp.pinFault with
  | true => rw [execSamp_fault hf, execSamp_fault (by exact hf)]; rfl
  | false => rw [execSamp_ok hf, execSamp_ok (by exact hf)]; rfl

theorem pollReady_withPulseIdx : withoutPulseIdx (pollReady (withPulseIdx k s)) = withoutPulseIdx (pollReady s) := by
  cases hf : s.inp.pinFault with
  | true => rw [pollReady_fault hf, pollReady_fault (by exact hf)]; rfl
  | false =>
    cases hd : s.inp.data with
    | false => rw [pollReady_ready hf hd, pollReady_ready (by exact hf) (by exact hd)]; rfl
    | true =>
      by_cases hc : s.readyCnt.toNat + 1 < s.timeoutCur.toNat
      · rw [pollReady_wait hf hd hc, pollReady_wait (by exact hf) (by exact hd) (by exact hc)]; rfl
      · have hc' : s.timeoutCur.toNat ≤ s.readyCnt.toNat + 1 := by omega
        rw [pollReady_timeout hf hd hc', pollReady_timeout (by exact hf) (by exact hd) (by exact hc')]; rfl

theorem settle_withPulseIdx : withoutPulseIdx (settle (withPulseIdx k s)) = withoutPulseIdx (settle s) := by
  by_cases hc : s.readyCnt.toNat + 1 < s.params.settleTicks
  · rw [settle_wait hc, settle_wait (by exact hc)]; rfl
  · have hc' : s.params.settleTicks ≤ s.readyCnt.toNat + 1 := by omega
    rw [settle_over hc', settle_over (by exact hc')]; rfl

theorem execRdy_withPulseIdx : withoutPulseIdx (execRdy (withPulseIdx k s)) = withoutPulseIdx (execRdy s) := by
  cases hm : s.params.readyMode with
  | poll => rw [execRdy_poll hm, execRdy_poll (by exact hm), pollReady_withPulseIdx]
  | fixedDelay => rw [execRdy_fixedDelay hm, execRdy_fixedDelay (by exact hm), settle_withPulseIdx]

/-- Only the end of a gain slot asks which pulse it was; the end of the last data slot clears the count (R182, R183). -/
theorem execHold_withPulseIdx (g : Slot) (l : HoldHalf) (hgl : Instr.hold g l ≠ .hold .gain .low) :
    withoutPulseIdx (execHold g l (withPulseIdx k s)) = withoutPulseIdx (execHold g l s) := by
  by_cases h0 : s.holdCnt = 0
  · rw [execHold_refused g l h0, execHold_refused g l (by exact h0)]
  by_cases h1 : s.holdCnt = 1
  · rw [execHold_last g l h1, execHold_last g l (by exact h1)]
    match g, l with
    | .data, .high => rfl
    | .gain, .high => rfl
    | .gain, .low => exact absurd rfl hgl
    | .data, .low =>
      by_cases hb : s.bitIdx = 23
      · rw [nextAfterHold, nextAfterHold, endDataSlot_last (by exact hb), endDataSlot_last (by exact hb)]; rfl
      · rw [nextAfterHold, nextAfterHold, endDataSlot_next (by exact hb), endDataSlot_next (by exact hb)]; rfl
  · have h2 : 1 < s.holdCnt.toNat := by
      have hpos := BitVec.toNat_pos_of_ne_zero h0
      have hne : s.holdCnt.toNat ≠ 1 := fun e => h1 (BitVec.eq_of_toNat_eq e)
      omega
    rw [execHold_running g l h2, execHold_running g l (by exact h2)]; rfl

theorem writeConfig_withPulseIdx (g : GainCode) (h : HoldTicks) (t : ReadyTicks) :
    withPulseIdx 0 (writeConfig g h t (withPulseIdx k s)) = withPulseIdx 0 (writeConfig g h t s) := by
  unfold writeConfig
  split <;> rfl

theorem exec_withPulseIdx (i : Instr) (hi : i ≠ .hold .gain .low) :
    withoutPulseIdx (exec i (withPulseIdx k s)) = withoutPulseIdx (exec i s) := by
  cases i with
  | canc => exact execCanc_withPulseIdx k s
  | rdy => exact execRdy_withPulseIdx k s
  | seth g => exact driveClock_withPulseIdx k s _ _ g _
  | setl g => exact driveClock_withPulseIdx k s _ _ g _
  | samp => exact execSamp_withPulseIdx k s
  | hold g l => exact execHold_withPulseIdx k s g l hi
  | latg | clr | sext | emit | shin => rfl
  | cfgA128 h t | cfgA64 h t | cfgB32 h t => exact congrArg Host.Outcome.next (writeConfig_withPulseIdx k s _ h t)

end

/-- Settles O40: the clauses are kept one by one, LATG alone breaks the literal (d), and the gain slot's low hold alone
reads `pulse_idx`. -/
theorem stepKeepsLegal : Obligations.StepKeepsLegal :=
  ⟨fun _ _ => step_keeps_legal, fun _ _ => legalAsWritten_step_iff, fun i s k => exec_withPulseIdx k s i⟩

end Sys2Proof.Proofs
end

section
/-! SUPPORT. Who writes which field (R20), which ticks raise a strobe (R41), and when a sample counts as delivered (U9). -/

namespace Sys2Proof.Proofs

open Sys2Proof.Machine Sys2Proof.Safety Sys2Proof.Laws

/-! ## The writers of each field -/

/-- The "written by" column of R20 for the fields of the sequencer, but for the abort; `bit_latch` as R141 has it. -/
def SequencerWriters (i : Instr) (s t : State) : Prop :=
  (t.raw = s.raw ∨ i = .clr ∨ i = .shin) ∧
  (t.bitLatch = s.bitLatch ∨ i = .samp ∨ i = .clr) ∧
  (t.sample = s.sample ∨ i = .sext) ∧
  (t.bitIdx = s.bitIdx ∨ i = .clr ∨ ∃ g l, i = .hold g l) ∧
  (t.pulseIdx = s.pulseIdx ∨ ∃ g l, i = .hold g l) ∧
  (t.holdCnt = s.holdCnt ∨ (∃ g, i = .seth g) ∨ (∃ g, i = .setl g) ∨ ∃ g l, i = .hold g l) ∧
  (t.readyCnt = s.readyCnt ∨ i = .latg ∨ i = .rdy) ∧
  (t.clock = s.clock ∨ (∃ g, i = .seth g) ∨ ∃ g, i = .setl g) ∧
  (t.nCur = s.nCur ∧ t.holdCur = s.holdCur ∧ t.timeoutCur = s.timeoutCur ∨ i = .latg) ∧
  (t.err = s.err ∨ i = .rdy ∧ t.err = .readyTimeout ∨ i = .emit ∧ t.err = .none) ∧
  (t.stopped = s.stopped ∨ i = .canc ∧ s.inp.cancel = true)

section
variable {i : Instr} {s t : State}

/-- Every effect is the abort of a failed pin access or keeps to its column of R20. -/
theorem effect_writers (h : Effect i s t) :
    (accessesPin s.params.readyMode i = true ∧ s.inp.pinFault = true) ∨ SequencerWriters i s t := by
  cases h with
  | rdyFault _ hm hf => exact .inl ⟨by simp [accessesPin, hm], hf⟩
  | sethFault _ _ hf | setlFault _ _ hf | sampFault _ hf => exact .inl ⟨rfl, hf⟩
  | cancStop _ hc => exact .inr (by simp [SequencerWriters, hc])
  | _ => exact .inr (by simp [SequencerWriters])

theorem afterConfig_sequencerWriters (h : SequencerWriters i s t) : SequencerWriters i s (endTick (afterConfig t)) := by
  simpa [SequencerWriters] using h

theorem effect_cfgRegisters (hw : Selects s.st s.ph i) (h : Effect i s t) :
    ((afterConfig t).cfgGain = s.cfgGain ∧ (afterConfig t).cfgHold = s.cfgHold ∧
      (afterConfig t).cfgTimeout = s.cfgTimeout) ∨ CfgAccepted s := by
  obtain ⟨hg, hh, ht, -⟩ := effect_cfg hw h
  have hcfg := afterConfig_cfg t
  rwa [hg, hh, ht, CfgAccepted, effect_inp h] at hcfg

end

/-- Settles O45: the effect of the primitive keeps to R20's column, and CFG writes only its own registers. -/
theorem fieldsChangeByTheirWritersOnly : Obligations.FieldsChangeByTheirWritersOnly := by
  intro s t i hr hs hd h
  obtain ⟨u, hw, hu, rfl⟩ := step_effect_of_decode hr hs hd h
  refine (effect_writers hu).imp id fun hwr => ?_
  obtain ⟨h1, h2, h3, h4, h5, h6, h7, h8, h9, h10, h11⟩ := afterConfig_sequencerWriters hwr
  exact ⟨h1, h2, h3, h4, h5, h6, h7, h8, h9, h10, h11, effect_cfgRegisters (s := beginTick s) hw hu⟩

/-! ## Strobes -/

section
variable {i : Instr} {s t : State}

theorem effect_sampleValid_iff (h : Effect i s t) (h0 : s.sampleValid = false) : t.sampleValid = true ↔ i = .emit := by
  cases h <;> simp [h0]

/-- The wait that RDY is in times out in this tick (R140, R221). -/
abbrev WaitTimesOutNow (s : State) : Prop :=
  s.params.readyMode = .poll ∧ s.inp.pinFault = false ∧ s.inp.data = true ∧ s.timeoutCur.toNat ≤ s.readyCnt.toNat + 1

theorem effect_of_fault (h : Effect i s t) (ha : accessesPin s.params.readyMode i = true) (hf : s.inp.pinFault = true) :
    t = enterHardwareFault s := by
  cases h with
  | rdyFault | sethFault | setlFault | sampFault => rfl
  | seth _ _ hok | setl _ _ hok | samp _ hok => simp [hf] at hok
  | rdyReady _ _ hok | rdyWait _ _ hok | rdyTimeout _ _ hok => simp [hf] at hok
  | rdySettled _ hm | rdySettling _ hm => simp [accessesPin, hm] at ha
  | _ => simp [accessesPin] at ha

theorem effect_of_timeout (h : Effect .rdy s t) (hw : WaitTimesOutNow s) :
    t = enterReadyTimeout { s with history := s.history ++ [.poll true] } := by
  obtain ⟨hm, hf, hd, hc⟩ := hw
  cases h with
  | rdyTimeout => rfl
  | rdyFault _ _ hf' => simp [hf] at hf'
  | rdyReady _ _ _ hd' => simp [hd] at hd'
  | rdyWait _ _ _ _ hc' => omega
  | rdySettled _ hm' | rdySettling _ hm' => simp [hm] at hm'

/-- `err_valid` rises with the entry of HardwareFault or ReadyTimeout and with nothing else (R216, R220, R221). -/
theorem effect_errValid_cases (h : Effect i s t) (h0 : s.errValid = false) :
    t.errValid = false ∨ (accessesPin s.params.readyMode i = true ∧ s.inp.pinFault = true) ∨
      (i = .rdy ∧ WaitTimesOutNow s) := by
  cases h with
  | rdyFault _ hm hf => exact .inr (.inl ⟨by simp [accessesPin, hm], hf⟩)
  | sethFault _ _ hf | setlFault _ _ hf | sampFault _ hf => exact .inr (.inl ⟨rfl, hf⟩)
  | rdyTimeout _ hm hf hd hc => exact .inr (.inr ⟨rfl, hm, hf, hd, hc⟩)
  | cfgA128 | cfgA64 | cfgB32 => simp [h0]
  | _ => exact .inl h0

/-! ### The strobes of a tick -/

theorem step_sampleValid_iff (h : step s = .next t) :
    t.sampleValid = true ↔ s.inp.rst = false ∧ s.stopped = false ∧ decode (.seq s.seqWord) = .ok .emit := by
  obtain ⟨-, ⟨hr, rfl⟩ | ⟨-, hs, rfl⟩ | ⟨hr, hs, i, u, hd, -, hu, rfl⟩⟩ := step_effect h
  · simp [hr]
  · simp [hs]
  · simp [hr, hs, hd, effect_sampleValid_iff hu rfl]

theorem step_emit (hr : s.inp.rst = false) (hs : s.stopped = false) (hd : decode (.seq s.seqWord) = .ok .emit)
    (h : step s = .next t) :
    t.sample = s.sample ∧ t.err = .none ∧ delivered t.history = true := by
  obtain ⟨u, -, hu, rfl⟩ := step_effect_of_decode hr hs hd h
  cases hu
  simp [delivered_append]

theorem step_fault (hr : s.inp.rst = false) (hs : s.stopped = false) (hd : decode (.seq s.seqWord) = .ok i)
    (h : step s = .next t) (ha : accessesPin s.params.readyMode i = true) (hf : s.inp.pinFault = true) :
    t.err = .hardwareFault ∧ t.errValid = true := by
  obtain ⟨u, -, hu, rfl⟩ := step_effect_of_decode hr hs hd h
  simp [effect_of_fault hu ha hf]

theorem step_timeout (hr : s.inp.rst = false) (hs : s.stopped = false) (hd : decode (.seq s.seqWord) = .ok .rdy)
    (h : step s = .next t) (hw : WaitTimesOutNow s) : t.err = .readyTimeout ∧ t.errValid = true := by
  obtain ⟨u, -, hu, rfl⟩ := step_effect_of_decode hr hs hd h
  simp [effect_of_timeout hu hw]

theorem step_errValid (h : step s = .next t) (hv : t.errValid = true) :
    s.inp.rst = false ∧ s.stopped = false ∧ ∃ i, decode (.seq s.seqWord) = .ok i ∧
      ((accessesPin s.params.readyMode i = true ∧ s.inp.pinFault = true) ∨ (i = .rdy ∧ WaitTimesOutNow s)) := by
  obtain ⟨-, ⟨-, rfl⟩ | ⟨-, -, rfl⟩ | ⟨hr, hs, i, u, hd, -, hu, rfl⟩⟩ := step_effect h
  · simp at hv
  · simp at hv
  · refine ⟨hr, hs, i, hd, (effect_errValid_cases hu rfl).resolve_left ?_⟩
    simpa using hv

theorem step_cfgRej_iff (h : step s = .next t) : t.cfgRej = true ↔ s.inp.rst = false ∧ CfgRejected s := by
  obtain ⟨-, ⟨hr, rfl⟩ | ⟨hr, -, rfl⟩ | ⟨hr, -, i, u, -, hw, hu, rfl⟩⟩ := step_effect h
  · simp [hr]
  · simp only [endTick_cfgRej, afterConfig_cfgRej_iff, beginTick_cfgRej, hr, true_and, Bool.false_eq_true, false_or]
    exact Iff.rfl
  · obtain ⟨-, -, -, hrej⟩ := effect_cfg hw hu
    have hinp : u.inp = s.inp := by simpa using effect_inp hu
    simp [afterConfig_cfgRej_iff, hrej, hr, CfgRejected, hinp]

end

theorem code_ne_three {c : ErrCode} (h : c ≠ .protocolViolation) : c.code ≠ 3 := by
  cases c with
  | protocolViolation => exact absurd rfl h
  | none | hardwareFault | readyTimeout => decide

/-- Settles O47: `sample_valid` is EMIT's, `err_valid` the two sequencer exceptions', `cfg_rej` CFG's, and a legal state's
`err` is never code 3. -/
theorem strobesMarkTheirTicks : Obligations.StrobesMarkTheirTicks := by
  refine ⟨fun s => by simp only [State.outputs]; cases s.err <;> rfl, fun s t hl h => ?_⟩
  simp only [outputs_sampleValidO, outputs_sampleO, outputs_errO, outputs_errValidO, outputs_cfgRejO]
  refine ⟨step_sampleValid_iff h, fun hv => ?_, ⟨fun hv => ?_, ?_⟩, fun hr hs i hd => ⟨fun ha hf => ?_, ?_⟩,
    step_cfgRej_iff h, ?_⟩
  · obtain ⟨hr, hs, hd⟩ := (step_sampleValid_iff h).1 hv
    obtain ⟨hsample, herr, -⟩ := step_emit hr hs hd h
    exact ⟨hsample, by rw [herr, code_none]⟩
  · obtain ⟨hr, hs, i, hd, ⟨ha, hf⟩ | ⟨rfl, hw⟩⟩ := step_errValid h hv
    · exact ⟨hr, hs, i, hd, .inl ⟨ha, hf, by rw [(step_fault hr hs hd h ha hf).1, code_hardwareFault]⟩⟩
    · obtain ⟨hm, hf, hdata, hc⟩ := hw
      exact ⟨hr, hs, .rdy, hd,
        .inr ⟨rfl, hm, hf, hdata, hc, by rw [(step_timeout hr hs hd h ⟨hm, hf, hdata, hc⟩).1, code_readyTimeout]⟩⟩
  · rintro ⟨hr, hs, i, hd, ⟨ha, hf, -⟩ | ⟨rfl, hm, hf, hdata, hc, -⟩⟩
    · exact (step_fault hr hs hd h ha hf).2
    · exact (step_timeout hr hs hd h ⟨hm, hf, hdata, hc⟩).2
  · exact (step_fault hr hs hd h ha hf).imp (fun he => by rw [he, code_hardwareFault]) id
  · rintro rfl hm hf hdata hc
    exact (step_timeout hr hs hd h ⟨hm, hf, hdata, hc⟩).imp (fun he => by rw [he, code_readyTimeout]) id
  · obtain ⟨-, -, -, -, -, -, -, -, herr, -⟩ := step_keeps_legal hl h
    exact code_ne_three herr

/-! ## The host's read of the sample -/

/-- No sequencer primitive but EMIT delivers a sample, and none takes one back (R22, U9). -/
theorem effect_delivered {i : Instr} {s t : State} (hw : Selects s.st s.ph i) (h : Effect i s t) (hi : i ≠ .emit) :
    delivered t.history = delivered s.history := by
  cases h with
  | emit => exact absurd rfl hi
  | rdyFault | sethFault | sampFault | setlFault => simp [delivered]
  | rdyTimeout => simp [delivered]
  | cfgA128 | cfgA64 | cfgB32 => exact (selects_fetchedAt hw).elim
  | latg | cancGo | rdySettled | rdySettling | clr | sext | holdRunning | shin => rfl
  | _ => exact delivered_append _ _

theorem hostReadSample_delivered {s : State} (h : delivered s.history = true) : hostReadSample s = .ok s.sample :=
  if_pos h

theorem hostReadSample_undelivered {s : State} (h : delivered s.history = false) :
    hostReadSample s = .error .sampleNotDelivered := by simp [hostReadSample, h]

/-- Settles O27: `delivered` falls with Reset, rises with EMIT and is left alone by every other tick. -/
theorem hostReadNeedsAnEmit : Obligations.HostReadNeedsAnEmit := by
  refine ⟨fun _ => rfl, fun p => hostReadSample_undelivered rfl, fun s t hr h => ?_, fun s t h => ?_,
    fun s t hr hs hd h => ?_, fun s t hr hi h => ?_⟩
  · obtain ⟨-, ⟨-, rfl⟩ | ⟨hr', -⟩ | ⟨hr', -⟩⟩ := step_effect h
    · exact hostReadSample_undelivered (by simp [delivered_append])
    · simp [hr] at hr'
    · simp [hr] at hr'
  · cases exec_effect h
    exact hostReadSample_delivered (by simp [delivered_append])
  · obtain ⟨hsample, -, hdel⟩ := step_emit hr hs hd h
    rw [hostReadSample_delivered hdel, hsample]
  · obtain ⟨-, ⟨hr', -⟩ | ⟨-, -, rfl⟩ | ⟨-, hs, i, u, hd, hw, hu, rfl⟩⟩ := step_effect h
    · simp [hr] at hr'
    · simp
    · have hne : i ≠ .emit := by
        rintro rfl
        simp [hs, hd] at hi
      simpa using effect_delivered (s := beginTick s) hw hu hne

end Sys2Proof.Proofs
end

section
/-! SUPPORT. The joint invariant of state and history: what a legal history shows in each sequencer word, and how each
event moves it on. -/

namespace Sys2Proof.Proofs

open Sys2Proof.Machine Sys2Proof.Safety Sys2Proof.Laws

/-! ## What a history shows, and one more event -/

/-- The history obeys the protocol, and the frame open at its end has the clock at `level`, `rises` rising edges and
`reads` bits read, which assemble to `value`. -/
def Shows (h : List Event) (level : Level) (rises reads : Nat) (value : RawSample) : Prop :=
  ∃ f, replay h = some f ∧ f.level = level ∧ f.rises = rises ∧ f.bits.length = reads ∧ assemble f.bits = value

theorem replay_append (h : List Event) (e : Event) : replay (h ++ [e]) = (replay h).bind (·.advance e) := by
  simp [replay]

theorem assemble_append (bits : List Bool) (b : Bool) : assemble (bits ++ [b]) = shiftIn (assemble bits) b := by
  simp [assemble]

section
variable {h : List Event} {level : Level} {r n : Nat} {v : RawSample}

/-- No frame is open: no edge, no bit (R262). -/
theorem shows_closed_iff : Shows h .lowHeld 0 0 0 ↔ replay h = some .closed := by
  constructor
  · rintro ⟨⟨bits, _, _⟩, hr, rfl, rfl, hbits, -⟩
    obtain rfl := List.length_eq_zero_iff.1 hbits
    exact hr
  · exact fun hr => ⟨_, hr, rfl, rfl, rfl, rfl⟩

theorem Shows.ckHi (hs : Shows h .lowHeld r n v) : Shows (h ++ [.ckHi]) .high (r + 1) n v := by
  obtain ⟨f, hr, hlevel, rfl, hbits, hv⟩ := hs
  exact ⟨{ f with rises := f.rises + 1, level := .high }, by simp [replay_append, hr, FrameLog.advance, hlevel],
    rfl, rfl, hbits, hv⟩

theorem Shows.holdHigh (d : HoldTicks) (hs : Shows h .high r n v) : Shows (h ++ [.hold d]) .highHeld r n v := by
  obtain ⟨f, hr, hlevel, hrest⟩ := hs
  exact ⟨{ f with level := .highHeld }, by simp [replay_append, hr, FrameLog.advance, hlevel], rfl, hrest⟩

theorem Shows.ckLo (hs : Shows h .highHeld r n v) (hn : n = min r 24) : Shows (h ++ [.ckLo]) .low r n v := by
  obtain ⟨f, hr, hlevel, rfl, rfl, hv⟩ := hs
  exact ⟨{ f with level := .low }, by simp [replay_append, hr, FrameLog.advance, hlevel, hn], rfl, rfl, rfl, hv⟩

theorem Shows.holdLow (d : HoldTicks) (hs : Shows h .low r n v) : Shows (h ++ [.hold d]) .lowHeld r n v := by
  obtain ⟨f, hr, hlevel, hrest⟩ := hs
  exact ⟨{ f with level := .lowHeld }, by simp [replay_append, hr, FrameLog.advance, hlevel], rfl, hrest⟩

/-- A bit is read while the clock is high, one per data slot (R71, R143). -/
theorem Shows.rd (b : Bool) (hs : Shows h level r n v) (hl : level = .high ∨ level = .highHeld) (hn : n + 1 = r)
    (hr24 : r ≤ 24) : Shows (h ++ [.rd b]) level r (n + 1) (shiftIn v b) := by
  obtain ⟨f, hr, rfl, rfl, rfl, rfl⟩ := hs
  exact ⟨{ f with bits := f.bits ++ [b] }, by simp [replay_append, hr, FrameLog.advance, hl, hn, hr24], rfl, rfl,
    by simp, assemble_append ..⟩

theorem Shows.emit (hs : Shows h .lowHeld r 24 v) (hlo : 25 ≤ r) (hhi : r ≤ 27) :
    Shows (h ++ [.emit (signExtendRaw v)]) .lowHeld 0 0 0 := by
  obtain ⟨f, hr, hlevel, rfl, hbits, rfl⟩ := hs
  exact shows_closed_iff.2 (by simp [replay_append, hr, FrameLog.advance, hlevel, hbits, hlo, hhi])

/-- The events between frames leave no frame open (R146, R221, R264). -/
theorem Shows.idle {e : Event} (hs : Shows h .lowHeld 0 0 0) (he : FrameLog.closed.advance e = some .closed) :
    Shows (h ++ [e]) .lowHeld 0 0 0 :=
  shows_closed_iff.2 (by rw [replay_append, shows_closed_iff.1 hs]; exact he)

/-- Events that end the attempt whatever the frame: Reset and HardwareFault (R220, R252). -/
theorem Shows.ended {e : Event} (hs : Shows h level r n v) (he : ∀ f : FrameLog, f.advance e = some .closed) :
    Shows (h ++ [e]) .lowHeld 0 0 0 := by
  obtain ⟨f, hr, -⟩ := hs
  exact shows_closed_iff.2 (by rw [replay_append, hr]; exact he f)

theorem Shows.ckForceLo (hs : Shows h level r n v) : Shows (h ++ [.ckForceLo]) level r n v := by
  obtain ⟨f, hr, hrest⟩ := hs
  exact ⟨f, by rw [replay_append, hr]; rfl, hrest⟩

end

/-! ## What a legal history shows in each word -/

section
variable {s : State}

theorem historyLegal_idle (hst : s.st = .idle) : HistoryLegal s ↔ Shows s.history .lowHeld 0 0 0 := by
  simp only [HistoryLegal, FrameMatches, hst, expectedRises, expectedBits]
  constructor
  · rintro ⟨f, hr, hlevel, hrises, hbits, -⟩
    exact ⟨f, hr, hlevel, hrises, hbits, by rw [List.length_eq_zero_iff.1 hbits]; rfl⟩
  · rintro ⟨f, hr, hlevel, hrises, hbits, -⟩
    exact ⟨f, hr, hlevel, hrises, hbits, fun h => absurd rfl h, nofun⟩

theorem historyLegal_pulseTrain {ph : BitVec 3} (hw : s.st = .pulseTrain ∧ s.ph = ph) :
    HistoryLegal s ↔ Shows s.history (expectedLevel s.params.samplePoint .pulseTrain ph)
      (s.bitIdx.toNat + if ph = 0 then 0 else 1)
      (s.bitIdx.toNat + if sampledWord s.params.samplePoint ph = true then 1 else 0)
      (if latchedWord s.params.samplePoint .pulseTrain ph = true then shiftIn s.raw s.bitLatch else s.raw) := by
  simp [HistoryLegal, FrameMatches, Shows, hw, expectedRises, expectedBits]

theorem historyLegal_gainSelect {ph : BitVec 3} (hw : s.st = .gainSelect ∧ s.ph = ph) :
    HistoryLegal s ↔ Shows s.history (expectedLevel s.params.samplePoint .gainSelect ph)
      (24 + s.pulseIdx.toNat + if ph = 0 then 0 else 1) 24 s.raw := by
  simp [HistoryLegal, FrameMatches, Shows, hw, expectedRises, expectedBits, latchedWord]

theorem historyLegal_sext (hw : s.st = .signExtend ∧ s.ph = 0) :
    HistoryLegal s ↔ Shows s.history .lowHeld (24 + s.nCur.toNat) 24 s.raw := by
  simp [HistoryLegal, FrameMatches, Shows, hw, expectedLevel, expectedRises, expectedBits, latchedWord]

theorem historyLegal_emit (hw : s.st = .signExtend ∧ s.ph = 1) :
    HistoryLegal s ↔ Shows s.history .lowHeld (24 + s.nCur.toNat) 24 s.raw ∧ s.sample = signExtendRaw s.raw := by
  simp [HistoryLegal, FrameMatches, Shows, hw, expectedLevel, expectedRises, expectedBits, latchedWord, St.pulsing,
    St.code, ← and_assoc]

/-! ### The words of a data slot whose order SAMPLE_POINT decides (R142) -/

theorem phaseAfterSeth_gain (p : SamplePoint) : phaseAfterSeth p .gain = 1 := by cases p <;> rfl

theorem historyLegal_afterSeth (hw : s.st = .pulseTrain ∧ s.ph = phaseAfterSeth s.params.samplePoint .data) :
    HistoryLegal s ↔ Shows s.history .high (s.bitIdx.toNat + 1) s.bitIdx.toNat s.raw := by
  rw [historyLegal_pulseTrain hw]
  cases s.params.samplePoint <;> rfl

/-- SAMP leaves the clock as it was. -/
theorem historyLegal_afterSamp (hw : s.st = .pulseTrain ∧ s.ph = phaseAfterSamp s.params.samplePoint) :
    HistoryLegal s ↔ Shows s.history (expectedLevel s.params.samplePoint .pulseTrain 2) (s.bitIdx.toNat + 1)
      (s.bitIdx.toNat + 1) (shiftIn s.raw s.bitLatch) := by
  rw [historyLegal_pulseTrain hw]
  cases s.params.samplePoint <;> rfl

/-- The high hold leaves the bits as they were: none read yet, or the bit of the slot latched. -/
theorem historyLegal_afterDataHigh (hw : s.st = .pulseTrain ∧ s.ph = phaseAfterDataHigh s.params.samplePoint) :
    HistoryLegal s ↔ Shows s.history .highHeld (s.bitIdx.toNat + 1)
      (s.bitIdx.toNat + if sampledWord s.params.samplePoint 1 = true then 1 else 0)
      (if latchedWord s.params.samplePoint .pulseTrain 1 = true then shiftIn s.raw s.bitLatch else s.raw) := by
  rw [historyLegal_pulseTrain hw]
  cases s.params.samplePoint <;> rfl

theorem expectedLevel_samp (p : SamplePoint) :
    expectedLevel p .pulseTrain 2 = .high ∨ expectedLevel p .pulseTrain 2 = .highHeld := by
  cases p
  · exact .inr rfl
  · exact .inl rfl

end

theorem historyLegal_shows {s : State} (hl : HistoryLegal s) : ∃ level r n v, Shows s.history level r n v := by
  obtain ⟨f, hr, -⟩ := hl
  exact ⟨_, _, _, _, f, hr, rfl, rfl, rfl, rfl⟩

/-! ## One primitive -/

/-- Each primitive moves the frame on by its event, from what its word shows to what the next word shows. Level, edges
and bits of a fixed word compute, so both readings are taken up to unfolding. -/
theorem effect_keeps_history {i : Instr} {s t : State} (hw : Selects s.st s.ph i) (h : Effect i s t) (hn : s.nCur ≠ 0)
    (hb : s.bitIdx.toNat ≤ 23) (hk : s.pulseIdx.toNat ≤ 2) (hl : HistoryLegal s) : HistoryLegal t := by
  have hf := selects_fetchedAt hw
  cases h with
  | rdySettling | holdRunning => exact hl
  | rdyFault | sethFault | sampFault | setlFault =>
    obtain ⟨_, _, _, _, hs⟩ := historyLegal_shows hl
    rw [historyLegal_idle rfl, enterHardwareFault_history, List.append_cons]
    exact hs.ckForceLo.ended fun _ => rfl
  | cancGo | latg | rdySettled => exact (historyLegal_idle rfl).2 ((historyLegal_idle hf.1).1 hl)
  | cancStop | rdyWait =>
    exact (historyLegal_idle (by exact hf.1)).2 (((historyLegal_idle hf.1).1 hl).idle rfl)
  | rdyReady => exact (historyLegal_idle rfl).2 (((historyLegal_idle hf.1).1 hl).idle rfl)
  | rdyTimeout => exact (historyLegal_idle rfl).2 ((((historyLegal_idle hf.1).1 hl).idle rfl).idle rfl)
  | clr => exact (historyLegal_pulseTrain ⟨rfl, rfl⟩).2 ((historyLegal_idle hf.1).1 hl)
  | seth g =>
    cases g with
    | data => exact (historyLegal_afterSeth ⟨rfl, rfl⟩).2 ((historyLegal_pulseTrain hf).1 hl).ckHi
    | gain =>
      rw [historyLegal_gainSelect ⟨rfl, phaseAfterSeth_gain _⟩]
      exact ((historyLegal_gainSelect hf).1 hl).ckHi
  | setl g =>
    cases g with
    | data =>
      have hread : s.bitIdx.toNat + 1 = min (s.bitIdx.toNat + 1) 24 := by omega
      exact (historyLegal_pulseTrain ⟨rfl, rfl⟩).2 (((historyLegal_pulseTrain hf).1 hl).ckLo hread)
    | gain =>
      have hread : 24 = min (24 + s.pulseIdx.toNat + 1) 24 := by omega
      exact (historyLegal_gainSelect ⟨rfl, rfl⟩).2 (((historyLegal_gainSelect hf).1 hl).ckLo hread)
  | samp =>
    rw [historyLegal_afterSamp ⟨rfl, rfl⟩]
    exact ((historyLegal_pulseTrain hf).1 hl).rd _ (expectedLevel_samp _) rfl (Nat.succ_le_succ hb)
  | shin => exact (historyLegal_pulseTrain ⟨rfl, rfl⟩).2 ((historyLegal_pulseTrain hf).1 hl)
  | holdDataHigh => exact (historyLegal_afterDataHigh ⟨rfl, rfl⟩).2 (((historyLegal_pulseTrain hf).1 hl).holdHigh _)
  | holdGainHigh => exact (historyLegal_gainSelect ⟨rfl, rfl⟩).2 (((historyLegal_gainSelect hf).1 hl).holdHigh _)
  | holdDataNext =>
    have hnext : (s.bitIdx + 1).toNat = s.bitIdx.toNat + 1 := BitVec.toNat_add_of_lt (by bv_omega)
    rw [historyLegal_pulseTrain ⟨rfl, rfl⟩, hnext]
    exact ((historyLegal_pulseTrain hf).1 hl).holdLow _
  | holdDataLast _ _ hlast =>
    have h := (historyLegal_pulseTrain hf).1 hl
    rw [hlast] at h
    exact (historyLegal_gainSelect ⟨rfl, rfl⟩).2 (h.holdLow _)
  | holdGainNext =>
    have hnext : (s.pulseIdx + 1).toNat = s.pulseIdx.toNat + 1 := BitVec.toNat_add_of_lt (by bv_omega)
    rw [historyLegal_gainSelect ⟨rfl, rfl⟩, hnext]
    exact ((historyLegal_gainSelect hf).1 hl).holdLow _
  | holdGainLast _ _ hlast =>
    rw [historyLegal_sext ⟨rfl, rfl⟩, ← hlast]
    exact ((historyLegal_gainSelect hf).1 hl).holdLow _
  | sext => exact (historyLegal_emit ⟨rfl, rfl⟩).2 ⟨(historyLegal_sext hf).1 hl, rfl⟩
  | emit =>
    obtain ⟨h, hsample⟩ := (historyLegal_emit hf).1 hl
    have hpos := BitVec.toNat_pos_of_ne_zero hn
    have hlt := s.nCur.isLt
    rw [historyLegal_idle rfl, hsample]
    exact h.emit (by omega) (by omega)
  | cfgA128 | cfgA64 | cfgB32 => exact hf.elim

/-! ## One tick -/

/-- CFG's events may fall anywhere in a frame (R190, log entry 18). -/
theorem replay_afterConfig (s : State) : replay (afterConfig s).history = replay s.history := by
  rcases afterConfig_cases s with h | ⟨-, -, h⟩ | ⟨-, -, h⟩ <;> rw [h]
  · exact (replay_append _ _).trans (Option.bind_fun_some _)
  · exact (replay_append _ _).trans (Option.bind_fun_some _)

theorem historyLegal_tickEnd {s : State} (hl : HistoryLegal s) : HistoryLegal (endTick (afterConfig s)) := by
  simpa [HistoryLegal, FrameMatches, expectedRises, expectedBits, replay_afterConfig] using hl

/-- Settles O51: the primitive, CFG and reset each keep the history at what the word shows. -/
theorem stepKeepsHistoryLegal : Obligations.StepKeepsHistoryLegal := by
  intro s t hl hh h
  obtain ⟨-, ⟨-, rfl⟩ | ⟨-, -, rfl⟩ | ⟨-, -, i, u, -, hw, hu, rfl⟩⟩ := step_effect h
  · obtain ⟨_, _, _, _, hs⟩ := historyLegal_shows hh
    exact (historyLegal_idle rfl).2 (hs.ended fun _ => rfl)
  · exact historyLegal_tickEnd (s := beginTick s) hh
  · obtain ⟨-, -, hg, -, hsl, -⟩ := hl
    exact historyLegal_tickEnd (effect_keeps_history (s := beginTick s) hw hu hg.1 hsl.1 (slots_pulseIdx_le hsl) hh)

end Sys2Proof.Proofs
end

section
/-! SUPPORT. The statement that a tick only appends to the history, and who reads DATA. -/

namespace Sys2Proof.Proofs

open Sys2Proof.Machine Sys2Proof.Safety Sys2Proof.Laws

/-! ## The history only grows -/

/-- A primitive records two events at most: the abort's, or a last poll and its timeout (R220, R221). -/
theorem effect_history_grows {st : St} {ph : BitVec 3} {i : Instr} {s t : State} (hw : Selects st ph i)
    (h : Effect i s t) : ∃ new, t.history = s.history ++ new ∧ new.length ≤ 2 := by
  cases h with
  | rdyFault | sethFault | sampFault | setlFault => exact ⟨_, rfl, le_rfl⟩
  | rdyTimeout => exact ⟨_, List.append_assoc _ [_] [_], le_rfl⟩
  | cancGo | latg | rdySettled | rdySettling | clr | sext | holdRunning | shin =>
    exact ⟨[], (List.append_nil _).symm, Nat.zero_le 2⟩
  | cfgA128 | cfgA64 | cfgB32 => cases hw
  | _ => exact ⟨_, rfl, Nat.le_succ 1⟩

theorem afterConfig_history_grows (s : State) :
    ∃ new, (afterConfig s).history = s.history ++ new ∧ new.length ≤ 1 := by
  rcases afterConfig_cases s with h | ⟨-, -, h⟩ | ⟨-, -, h⟩ <;> rw [h]
  · exact ⟨[], (List.append_nil _).symm, Nat.zero_le 1⟩
  · exact ⟨_, rfl, le_rfl⟩
  · exact ⟨_, rfl, le_rfl⟩

/-- Settles O49: at most two events of the primitive and then one of CFG, or `Reset` alone. -/
theorem historyOnlyGrows : Obligations.HistoryOnlyGrows := by
  intro s t h
  refine ⟨?_, step_params h⟩
  obtain ⟨-, ⟨-, rfl⟩ | ⟨-, -, rfl⟩ | ⟨-, -, i, u, -, hw, hu, rfl⟩⟩ := step_effect h
  · exact ⟨[.reset], rfl, by decide⟩
  · obtain ⟨new, hnew, hlen⟩ := afterConfig_history_grows (beginTick s)
    exact ⟨new, hnew, by omega⟩
  · obtain ⟨new, hnew, hlen⟩ := effect_history_grows hw hu
    obtain ⟨cfg, hcfg, hlen'⟩ := afterConfig_history_grows u
    refine ⟨new ++ cfg, ?_, ?_⟩
    · rw [endTick_history, hcfg, hnew, beginTick_history, List.append_assoc]
    · rw [List.length_append]; omega

/-! ## Who reads the input ports -/

/-- `Effect` lists next states only: the converse of `exec_effect`. -/
theorem effect_exec {i : Instr} {s t : State} (h : Effect i s t) : exec i s = .next t := by
  cases h with
  | cancStop _ hc | cancGo _ hc => simp [exec, execCanc, hc, record, goto]
  | latg | clr | sext | emit | shin | cfgA128 | cfgA64 | cfgB32 => rfl
  | rdyFault _ hm hf => rw [exec, execRdy_poll hm, pollReady_fault hf]
  | rdyReady _ hm hf hd => rw [exec, execRdy_poll hm, pollReady_ready hf hd]
  | rdyWait _ hm hf hd hc => rw [exec, execRdy_poll hm, pollReady_wait hf hd hc]
  | rdyTimeout _ hm hf hd hc => rw [exec, execRdy_poll hm, pollReady_timeout hf hd hc]
  | rdySettled _ hm hc => rw [exec, execRdy_fixedDelay hm, settle_over hc]
  | rdySettling _ hm hc => rw [exec, execRdy_fixedDelay hm, settle_wait hc]
  | seth g _ hf | setl g _ hf => exact driveClock_ok _ _ g _ hf
  | sethFault g _ hf | setlFault g _ hf => exact driveClock_fault _ _ g _ hf
  | samp _ hf => exact execSamp_ok hf
  | sampFault _ hf => exact execSamp_fault hf
  | holdRunning g l _ h => exact execHold_running g l h
  | holdDataHigh _ h | holdGainHigh _ h => exact execHold_last _ _ h
  | holdDataLast _ h hb => rw [exec, execHold_last _ _ h, nextAfterHold, endDataSlot_last (by exact hb)]
  | holdDataNext _ h hb => rw [exec, execHold_last _ _ h, nextAfterHold, endDataSlot_next (by exact hb)]
  | holdGainLast _ h hn => rw [exec, execHold_last _ _ h, nextAfterHold, endGainSlot_last (by exact hn)]
  | holdGainNext _ h hn => rw [exec, execHold_last _ _ h, nextAfterHold, endGainSlot_next (by exact hn)]

/-- `s` with the levels on the input ports changed by `φ`. -/
def withInputs (φ : Inputs → Inputs) (s : State) : State := { s with inp := φ s.inp }

/-- `φ` leaves the levels on the input ports that `i` reads as they are (R62, R185, R213). -/
def KeepsReads (i : Instr) (φ : Inputs → Inputs) (s : State) : Prop :=
  (accessesPin s.params.readyMode i = true → (φ s.inp).pinFault = s.inp.pinFault) ∧
    (readsData s.params.readyMode i = true → (φ s.inp).data = s.inp.data) ∧
    (i = .canc → (φ s.inp).cancel = s.inp.cancel)

theorem writeConfig_withInputs (φ : Inputs → Inputs) (s : State) (g : GainCode) (h : HoldTicks) (t : ReadyTicks) :
    writeConfig g h t (withInputs φ s) = withInputs φ (writeConfig g h t s) := by
  unfold writeConfig
  split <;> rfl

/-- The effect of a primitive is the same whatever the ports it does not read show. -/
theorem effect_withInputs {i : Instr} {φ : Inputs → Inputs} {s t : State} (hφ : KeepsReads i φ s)
    (h : Effect i s t) : Effect i (withInputs φ s) (withInputs φ t) := by
  obtain ⟨hpin, hdata, hcancel⟩ := hφ
  cases h with
  | cancStop _ hc => exact .cancStop (withInputs φ s) ((hcancel rfl).trans hc)
  | cancGo _ hc => exact .cancGo (withInputs φ s) ((hcancel rfl).trans hc)
  | rdyFault _ hm hf => exact .rdyFault (withInputs φ s) hm ((hpin (by simp [accessesPin, hm])).trans hf)
  | rdyReady _ hm hf hd =>
    exact .rdyReady (withInputs φ s) hm ((hpin (by simp [accessesPin, hm])).trans hf)
      ((hdata (by simp [readsData, hm])).trans hd)
  | rdyWait _ hm hf hd hc =>
    exact .rdyWait (withInputs φ s) hm ((hpin (by simp [accessesPin, hm])).trans hf)
      ((hdata (by simp [readsData, hm])).trans hd) hc
  | rdyTimeout _ hm hf hd hc =>
    exact .rdyTimeout (withInputs φ s) hm ((hpin (by simp [accessesPin, hm])).trans hf)
      ((hdata (by simp [readsData, hm])).trans hd) hc
  | seth g _ hf => exact .seth g (withInputs φ s) ((hpin rfl).trans hf)
  | sethFault g _ hf => exact .sethFault g (withInputs φ s) ((hpin rfl).trans hf)
  | setl g _ hf => exact .setl g (withInputs φ s) ((hpin rfl).trans hf)
  | setlFault g _ hf => exact .setlFault g (withInputs φ s) ((hpin rfl).trans hf)
  | samp _ hf =>
    rw [← hdata rfl]
    exact .samp (withInputs φ s) ((hpin rfl).trans hf)
  | sampFault _ hf => exact .sampFault (withInputs φ s) ((hpin rfl).trans hf)
  | cfgA128 | cfgA64 | cfgB32 =>
    rw [← writeConfig_withInputs]
    constructor
  | _ =>
    -- no port is read: the same premises
    constructor <;> assumption

/-- Noninterference: the outcome of `i` depends on no input port that `i` does not read, and `i` changes none (R62,
R185, R213). -/
theorem exec_withInputs {i : Instr} {φ : Inputs → Inputs} {s : State} (hφ : KeepsReads i φ s) :
    exec i (withInputs φ s) = andThen (exec i s) fun t => .next (withInputs φ t) := by
  rcases exec_outcome i s with ⟨t, ht⟩ | ⟨g, l, rfl, h0⟩
  · rw [ht, andThen_next]
    exact effect_exec (effect_withInputs hφ (exec_effect ht))
  · rw [exec, exec, execHold_refused g l h0, execHold_refused g l (by exact h0)]
    rfl

/-- Settles O36: `withData` moves a port that only the readers of DATA read. -/
theorem dataIgnoredOutsideSampAndRdy : Obligations.DataIgnoredOutsideSampAndRdy := by
  intro i s b hi
  have hφ : KeepsReads i (fun p => { p with data := b }) s := ⟨fun _ => rfl, by simp [hi], fun _ => rfl⟩
  exact exec_withInputs hφ

end Sys2Proof.Proofs
end

section
/-! SUPPORT. The statements about the two word formats: decoder and encoder are inverse to each other (R91, R93, R94). -/

namespace Sys2Proof.Proofs

open Sys2Proof.Machine Sys2Proof.Safety Sys2Proof.Laws

/-! ## The sequencer word -/

theorem seqWordOf_fields (w : BitVec 5) : seqWordOf (seqSt w) (seqPh w) = w := by revert w; decide

theorem encode_of_selects {st : St} {ph : BitVec 3} {i : Instr} (h : Selects st ph i) :
    encode i = .seq (seqWordOf st ph) := by cases h <;> rfl

theorem decode_seqWordOf_iff {st : St} {ph : BitVec 3} {i : Instr} :
    decode (.seq (seqWordOf st ph)) = .ok i ↔ Selects st ph i := ⟨decode_selects, selects_decode⟩

theorem decode_encode_of_selects {st : St} {ph : BitVec 3} {i : Instr} (h : Selects st ph i) :
    decode (encode i) = .ok i := by rw [encode_of_selects h, selects_decode h]

theorem encode_of_decode_seq {w : BitVec 5} {i : Instr} (h : decode (.seq w) = .ok i) : encode i = .seq w := by
  rw [← seqWordOf_fields w] at h ⊢
  exact encode_of_selects (decode_selects h)

/-! ## The configuration word -/

/-- The form of CFG that sets the gain `x` (R94). -/
def cfgForm (x : GainSetting) (hold : HoldTicks) (timeout : ReadyTicks) : Instr :=
  match x with
  | .a128 => .cfgA128 hold timeout
  | .a64 => .cfgA64 hold timeout
  | .b32 => .cfgB32 hold timeout

theorem encode_cfgForm (x : GainSetting) (hold : HoldTicks) (timeout : ReadyTicks) :
    encode (cfgForm x hold timeout) = .cfgw (cfgWordOf timeout hold (Config.gainN x)) := by cases x <;> rfl

theorem gainOfCode_gainN (x : GainSetting) : gainOfCode (Config.gainN x) = some x := by cases x <;> rfl

theorem decode_encode_cfgForm (x : GainSetting) (hold : HoldTicks) (timeout : ReadyTicks) :
    decode (encode (cfgForm x hold timeout)) = .ok (cfgForm x hold timeout) := by
  rw [encode_cfgForm, decode, decodeCfgw_cfgWordOf, gainOfCode_gainN]
  cases x <;> rfl

theorem cfgWordOf_toNat (t : ReadyTicks) (h : HoldTicks) (g : GainCode) :
    (cfgWordOf t h g).toNat = t.toNat * 2 ^ 18 + h.toNat * 4 + g.toNat := by
  have hg := g.isLt
  have hh := h.isLt
  rw [cfgWordOf, BitVec.toNat_append, BitVec.toNat_append, ← Nat.shiftLeft_add_eq_or_of_lt hg,
    ← Nat.shiftLeft_add_eq_or_of_lt hh, Nat.shiftLeft_eq, Nat.shiftLeft_eq]
  omega

/-- The three fields cover the configuration word (R93). -/
theorem cfgWordOf_fields (w : BitVec 50) : cfgWordOf (cfgwTimeout w) (cfgwHold w) (cfgwGain w) = w := by
  apply BitVec.eq_of_toNat_eq
  have hw := w.isLt
  simp only [cfgWordOf_toNat, cfgwTimeout, cfgwHold, cfgwGain, BitVec.extractLsb'_toNat, Nat.shiftRight_eq_div_pow]
  omega

theorem decodeCfgw_eq_ok {w : BitVec 50} {i : Instr} (h : decodeCfgw w = .ok i) :
    ∃ x, cfgwGain w = Config.gainN x ∧ i = cfgForm x (cfgwHold w) (cfgwTimeout w) := by
  rw [← cfgWordOf_fields w, decodeCfgw_cfgWordOf] at h
  rcases gainOfCode_cases (cfgwGain w) with ⟨-, hg⟩ | ⟨x, hx, hg⟩
  · simp [hg] at h
  · refine ⟨x, hx, ?_⟩
    rw [hg] at h
    cases x <;> cases h <;> rfl

theorem encode_of_decodeCfgw {w : BitVec 50} {i : Instr} (h : decodeCfgw w = .ok i) : encode i = .cfgw w := by
  obtain ⟨x, hx, rfl⟩ := decodeCfgw_eq_ok h
  rw [encode_cfgForm, ← hx, cfgWordOf_fields]

/-! ## Both formats -/

/-- Settles O1: a primitive's words are the ones that select it, and a form of CFG is its gain code and its two fields. -/
theorem decodeEncodeRoundTrip : Obligations.DecodeEncodeRoundTrip := by
  intro i
  cases i with
  | canc => exact decode_encode_of_selects .canc
  | latg => exact decode_encode_of_selects .latg
  | rdy => exact decode_encode_of_selects .rdy
  | clr => exact decode_encode_of_selects .clr
  | sext => exact decode_encode_of_selects .sext
  | emit => exact decode_encode_of_selects .emit
  | seth g =>
    cases g with
    | data => exact decode_encode_of_selects .sethData
    | gain => exact decode_encode_of_selects .sethGain
  | hold g l =>
    match g, l with
    | .data, .high => exact decode_encode_of_selects .holdDataHigh
    | .data, .low => exact decode_encode_of_selects .holdDataLow
    | .gain, .high => exact decode_encode_of_selects .holdGainHigh
    | .gain, .low => exact decode_encode_of_selects .holdGainLow
  | samp => exact decode_encode_of_selects .samp
  | shin => exact decode_encode_of_selects .shin
  | setl g =>
    cases g with
    | data => exact decode_encode_of_selects .setlData
    | gain => exact decode_encode_of_selects .setlGain
  | cfgA128 hold timeout => exact decode_encode_cfgForm .a128 hold timeout
  | cfgA64 hold timeout => exact decode_encode_cfgForm .a64 hold timeout
  | cfgB32 hold timeout => exact decode_encode_cfgForm .b32 hold timeout

/-- Settles O2: a sequencer word is its state and phase, a configuration word its three fields. -/
theorem encodeDecodeRoundTrip : Obligations.EncodeDecodeRoundTrip := by
  intro c i h
  cases c with
  | seq w => exact encode_of_decode_seq h
  | cfgw w => exact encode_of_decodeCfgw h

/-- Decoder and encoder are inverse to each other. -/
theorem decode_eq_ok_iff {c : CodeWord} {i : Instr} : decode c = .ok i ↔ encode i = c :=
  ⟨encodeDecodeRoundTrip c i, fun h => h ▸ decodeEncodeRoundTrip i⟩

/-! ## The operation map -/

/-- A row with the full mask selects its one word (R91). -/
theorem fullMask_iff {m : BitVec 5} {i : Instr} (he : encode i = .seq m) (w : BitVec 5) :
    w &&& 0x1F = m ↔ decode (.seq w) = .ok i := by
  rw [decode_eq_ok_iff, he, CodeWord.seq.injEq, eq_comm (a := m)]
  exact Eq.congr_left (BitVec.and_allOnes (x := w))

theorem encode_seth_of_mask : ∀ w : BitVec 5, w &&& 0x17 = 0x10 →
    encode (.seth (Slot.ofBit (w.getLsbD 3))) = .seq w := by decide

theorem encode_hold_of_mask : ∀ w : BitVec 5, w &&& 0x13 = 0x11 →
    encode (.hold (Slot.ofBit (w.getLsbD 3)) (HoldHalf.ofBit (w.getLsbD 2))) = .seq w := by decide

theorem encode_setl_of_mask : ∀ w : BitVec 5, w &&& 0x17 = 0x14 →
    encode (.setl (Slot.ofBit (w.getLsbD 3))) = .seq w := by decide

/-- What the table says of a primitive's encoding it says of every word that decodes to it. -/
theorem mask_of_decode {w mask m : BitVec 5} {i : Instr} (hrow : ∃ v, encode i = .seq v ∧ v &&& mask = m)
    (h : decode (.seq w) = .ok i) : w &&& mask = m := by
  obtain ⟨v, hv, hm⟩ := hrow
  cases hv.symm.trans (decode_eq_ok_iff.1 h)
  exact hm

/-- Settles O3: a row's words are the encodings of its instructions, and these are the words that decode to it. -/
theorem operationMapWords : Obligations.OperationMapWords := by
  refine ⟨fun w => ⟨fullMask_iff rfl w, fullMask_iff rfl w, fullMask_iff rfl w, fullMask_iff rfl w, fullMask_iff rfl w,
    fullMask_iff rfl w, ⟨fun h => ?_, ?_⟩, ⟨fun h => ?_, ?_⟩, fullMask_iff rfl w, fullMask_iff rfl w,
    ⟨fun h => ?_, ?_⟩⟩, by decide⟩
  · exact ⟨_, decode_eq_ok_iff.2 (encode_seth_of_mask w h)⟩
  · rintro ⟨g, h⟩
    exact mask_of_decode (TableRow.seth g) h
  · exact ⟨_, _, decode_eq_ok_iff.2 (encode_hold_of_mask w h)⟩
  · rintro ⟨g, l, h⟩
    exact mask_of_decode (TableRow.hold g l) h
  · exact ⟨_, decode_eq_ok_iff.2 (encode_setl_of_mask w h)⟩
  · rintro ⟨g, h⟩
    exact mask_of_decode (TableRow.setl g) h

/-! ## Fields -/

/-- Settles O4: the fields stand side by side, and the gain code alone selects the form. -/
theorem configurationWordFields : Obligations.ConfigurationWordFields := by
  intro t h g
  refine ⟨cfgWordOf_toNat t h g, ?_⟩
  rw [decode, decodeCfgw_cfgWordOf]
  rcases gainOfCode_cases g with ⟨rfl, hg⟩ | ⟨x, rfl, hg⟩ <;> rw [hg]
  · rfl
  · cases x <;> rfl

/-- Settles O5: a defined word selects its primitive in one state and phase. -/
theorem fetchedOperandsAreTheState : Obligations.FetchedOperandsAreTheState := by
  intro s g l
  have hfetched : ∀ i, decode (.seq s.seqWord) = .ok i → FetchedAt i s.st s.ph :=
    fun i h => selects_fetchedAt (decode_selects h)
  refine ⟨hfetched (.seth g), hfetched (.setl g), fun h => ?_, hfetched .samp, hfetched .shin⟩
  cases l with
  | high => exact hfetched (.hold g .high) h
  | low => exact hfetched (.hold g .low) h

end Sys2Proof.Proofs
end

section
/-! SUPPORT. The statement about refusals: a tick refuses where a state has no meaning, an empty HOLD is fetched or a
parameter is out of range, and nowhere else (R92, R122, U6). -/

namespace Sys2Proof.Proofs

open Sys2Proof.Machine Sys2Proof.Safety Sys2Proof.Laws

/-! ## The states without a meaning -/

theorem readyMode_ne_poll_iff {m : ReadyMode} : m ≠ .poll ↔ m = .fixedDelay := by cases m <;> decide

theorem pulseIdx_le_two_iff {k : BitVec 2} : k.toNat ≤ 2 ↔ k ≠ 3 := by revert k; decide

/-- Where the last frame's count may not stand (log entry 6), state by state. -/
theorem not_pulseIdxStale_iff (s : State) :
    ¬ s.pulseIdxStale ↔ s.pulseIdx = 3 ∨ s.st = .gainSelect ∨ s.st = .signExtend ∨
      (s.st = .idle ∧ s.ph.toNat < 2 ∧ (s.err = .readyTimeout → s.params.readyMode = .fixedDelay)) := by
  rw [State.pulseIdxStale, pulseIdx_le_two_iff, not_and_or, not_not]
  refine or_congr_right ?_
  cases s.st with
  | idle => simp [readyMode_ne_poll_iff]
  | signExtend | pulseTrain | gainSelect => simp

theorem meaningless_iff (s : State) :
    s.meaningless? ≠ none ↔ (∀ i, decode (.seq s.seqWord) ≠ .ok i) ∨ s.nCur = 0 ∨ s.holdCur = 0 ∨ s.timeoutCur = 0 ∨
      23 < s.bitIdx.toNat ∨ s.pulseIdxMeaningless := by
  have hword : (∃ i, Selects s.st s.ph i) ↔ ∃ i, decode (.seq s.seqWord) = .ok i :=
    exists_congr fun _ => decode_seqWordOf_iff.symm
  rw [ne_eq, meaningless_none_iff, hword]
  generalize s.pulseIdxMeaningless = unreached
  simp only [not_and_or, not_exists, ne_eq, not_not, Nat.not_le]

/-! ## The tick -/

/-- The conditions under which a tick refuses (R92, R122, U6; log entries 5 and 16). -/
def Refuses (s : State) : Prop :=
  s.params.ok = false ∨
    (s.inp.rst = false ∧ (s.meaningless? ≠ none ∨
      (s.stopped = false ∧ s.holdCnt = 0 ∧ ∃ g l, decode (.seq s.seqWord) = .ok (.hold g l))))

theorem step_emptyHold {s : State} {g : Slot} {l : HoldHalf} (hp : s.params.ok = true) (hr : s.inp.rst = false)
    (hm : s.meaningless? = none) (hs : s.stopped = false) (h0 : s.holdCnt = 0)
    (hd : decode (.seq s.seqWord) = .ok (.hold g l)) : step s = .refused .holdCounterZero := by
  rw [step_agents hp hr hm, runSequencer_exec (s := beginTick s) hs hd, exec, execHold_refused g l (by exact h0)]
  rfl

theorem step_refused_of_refuses {s : State} (h : Refuses s) : ∃ r, step s = .refused r := by
  cases hp : s.params.ok with
  | false => exact ⟨_, step_badParams hp⟩
  | true =>
    obtain ⟨hr, h⟩ := h.resolve_left (by simp [hp])
    cases hm : s.meaningless? with
    | some r => exact ⟨r, step_meaningless hp hr hm⟩
    | none =>
      obtain ⟨hs, h0, g, l, hd⟩ := h.resolve_left (by simp [hm])
      exact ⟨_, step_emptyHold hp hr hm hs h0 hd⟩

theorem step_next_of_not_refuses {s : State} (h : ¬ Refuses s) : ∃ t, step s = .next t := by
  obtain ⟨hp, h⟩ := not_or.1 h
  rw [Bool.not_eq_false] at hp
  cases hr : s.inp.rst with
  | true => exact ⟨_, step_reset hp hr⟩
  | false =>
    obtain ⟨hm, hhold⟩ := not_or.1 fun h' => h ⟨hr, h'⟩
    rw [not_not] at hm
    cases hs : s.stopped with
    | true => exact ⟨_, step_stopped hp hr hm hs⟩
    | false =>
      obtain ⟨⟨i, hi⟩, -⟩ := (meaningless_none_iff s).1 hm
      have hd : decode (.seq s.seqWord) = .ok i := selects_decode hi
      rcases exec_outcome i (beginTick s) with ⟨u, hu⟩ | ⟨g, l, rfl, h0⟩
      · exact ⟨_, step_exec hp hr hm hs hd hu⟩
      · exact absurd ⟨hs, h0, g, l, hd⟩ hhold

theorem step_refused_iff (s : State) : (∃ r, step s = .refused r) ↔ Refuses s := by
  refine ⟨fun ⟨r, hr⟩ => ?_, step_refused_of_refuses⟩
  by_contra h
  obtain ⟨t, ht⟩ := step_next_of_not_refuses h
  cases hr.symm.trans ht

theorem step_ne_fault (s : State) (r : Fault) : step s ≠ .fault r := by
  intro hf
  by_cases h : Refuses s
  · obtain ⟨q, hq⟩ := step_refused_of_refuses h
    cases hf.symm.trans hq
  · obtain ⟨t, ht⟩ := step_next_of_not_refuses h
    cases hf.symm.trans ht

/-- Settles O8: the conditions of `Refuses` are the only way a tick does not answer. -/
theorem refusedStatesAreTheMeaninglessOnes : Obligations.RefusedStatesAreTheMeaninglessOnes := by
  refine ⟨fun s => ?_, fun s hp hr r => step_meaningless hp hr, step_refused_iff, step_ne_fault⟩
  rw [meaningless_iff, State.pulseIdxMeaningless, not_pulseIdxStale_iff]

end Sys2Proof.Proofs
end

section
/-! SUPPORT. The statements about durations and about the assembly of 24 bits (R97, R100). -/

namespace Sys2Proof.Proofs

open Sys2Proof.Machine Sys2Proof.Safety Sys2Proof.Laws

/-! ## Durations -/

/-- `ticks` is the ceiling division of R100 wherever the period is positive. -/
theorem ticks_le_iff {p : Params} {dNum dDen k : Nat} (hd : 0 < dDen * p.tClkNum) (hk : 1 ≤ k) :
    p.ticks dNum dDen ≤ k ↔ dNum * p.tClkDen ≤ k * (dDen * p.tClkNum) := by
  rw [Params.ticks, max_le_iff, ← Nat.add_sub_assoc hd, ← Nat.ceilDiv_eq_add_pred_div, ceilDiv_le_iff_le_mul hd,
    mul_comm k]
  exact and_iff_right hk

/-- Settles O11: `ticks` is the least number of whole ticks from 1 up that is long enough. -/
theorem ticksRoundUp : Obligations.TicksRoundUp := by
  refine ⟨fun p dNum dDen hnum _ hden => ?_, fun p hn hd => ?_, fun p hn hd => ?_⟩
  · have hperiod : 0 < dDen * p.tClkNum := Nat.mul_pos hden hnum
    have hone : 1 ≤ p.ticks dNum dDen := Nat.le_max_left _ _
    refine ⟨hone, (ticks_le_iff hperiod hone).1 le_rfl, fun hgt => ?_⟩
    by_contra hlong
    have hfewer := (ticks_le_iff hperiod (Nat.le_sub_one_of_lt hgt)).2 (Nat.not_lt.1 hlong)
    omega
  · rw [Params.holdReset, Params.holdResetTicks, Params.ticks, hn, hd]
    rfl
  · rw [Params.holdReset, Params.holdResetTicks, Params.ticks, hn, hd]
    rfl

/-! ## The shift-in, bit by bit -/

theorem shiftIn_getLsbD_zero (raw : RawSample) (b : Bool) : (shiftIn raw b).getLsbD 0 = b := by
  rw [shiftIn, BitVec.getLsbD_append]
  simp

theorem shiftIn_getLsbD_succ (raw : RawSample) (b : Bool) {k : Nat} (hk : k < 23) :
    (shiftIn raw b).getLsbD (k + 1) = raw.getLsbD k := by
  rw [shiftIn, BitVec.getLsbD_append]
  simp [hk]

theorem shiftIn_eq_or (raw : RawSample) (b : Bool) :
    shiftIn raw b = (raw <<< 1) ||| (BitVec.ofBool b).zeroExtend 24 := by
  apply BitVec.eq_of_getLsbD_eq
  intro k hk
  cases k with
  | zero =>
    rw [shiftIn_getLsbD_zero]
    simp
  | succ k =>
    rw [shiftIn_getLsbD_succ raw b (Nat.lt_of_succ_lt_succ hk)]
    simp [hk, BitVec.getLsbD_eq_getElem (Nat.lt_of_succ_lt hk)]

/-- The shift-in doubles the number and adds the bit, as long as bit 23 is clear (R143). -/
theorem shiftIn_toNat {raw : RawSample} (b : Bool) (h : raw.toNat < 2 ^ 23) :
    (shiftIn raw b).toNat = 2 * raw.toNat + b.toNat := by
  rw [shiftIn, BitVec.toNat_append, BitVec.toNat_ofBool, ← Nat.shiftLeft_add_eq_or_of_lt b.toNat_lt,
    BitVec.extractLsb'_toNat, Nat.shiftRight_zero, Nat.mod_eq_of_lt h, Nat.shiftLeft_eq, pow_one, mul_comm]

/-! ## The assembled word, bit by bit -/

/-- The last bit read is the lowest; bits beyond the list are 0 (R97). -/
theorem assemble_getLsbD (bits : List Bool) {k : Nat} (hk : k < 24) :
    (assemble bits).getLsbD k = bits.reverse.getD k false := by
  induction bits using List.reverseRecOn generalizing k with
  | nil => simp [assemble]
  | append_singleton bits b ih =>
    rw [assemble_append, List.reverse_concat]
    cases k with
    | zero => exact shiftIn_getLsbD_zero _ _
    | succ k =>
      have hk' := Nat.lt_of_succ_lt_succ hk
      rw [shiftIn_getLsbD_succ _ _ hk', ih (Nat.lt_of_succ_lt hk), List.getD_cons_succ]

theorem assemble_getLsbD_msbFirst {bits : List Bool} (hlen : bits.length = 24) {k : Nat} (hk : k < 24) :
    (assemble bits).getLsbD (23 - k) = bits.getD k false := by
  rw [assemble_getLsbD bits (by omega), List.getD_eq_getElem?_getD, List.getElem?_reverse (by omega),
    ← List.getD_eq_getElem?_getD, show bits.length - 1 - (23 - k) = k by omega]

@[simp] theorem bitsOf_length (x : RawSample) : (bitsOf x).length = 24 := by simp [bitsOf]

theorem bitsOf_getD (x : RawSample) {k : Nat} (hk : k < 24) : (bitsOf x).getD k false = x.getLsbD (23 - k) := by
  simp [bitsOf, hk]

theorem assemble_bitsOf (x : RawSample) : assemble (bitsOf x) = x := by
  apply BitVec.eq_of_getLsbD_eq
  intro i hi
  have h := assemble_getLsbD_msbFirst (bitsOf_length x) (k := 23 - i) (by omega)
  rwa [bitsOf_getD x (by omega), show 23 - (23 - i) = i by omega] at h

theorem bitsOf_assemble {bits : List Bool} (hlen : bits.length = 24) : bitsOf (assemble bits) = bits := by
  refine List.ext_getElem (by simp [hlen]) fun k hk hk' => ?_
  rw [← List.getD_eq_getElem _ false hk, ← List.getD_eq_getElem _ false hk', bitsOf_getD _ (by omega),
    assemble_getLsbD_msbFirst hlen (by omega)]

/-! ## The assembled word as a number -/

/-- The number `b1 * 2^(n-1) + ... + bn * 2^0` that `n` bits stand for, first bit first (R97). -/
def msbFirst (bits : List Bool) : Nat :=
  ((List.range bits.length).map fun k => (bits.getD k false).toNat * 2 ^ (bits.length - 1 - k)).sum

theorem msbFirst_append (bits : List Bool) (b : Bool) : msbFirst (bits ++ [b]) = 2 * msbFirst bits + b.toNat := by
  have hterm : ∀ k ∈ List.range bits.length,
      ((bits ++ [b]).getD k false).toNat * 2 ^ (bits.length - k) =
        2 * ((bits.getD k false).toNat * 2 ^ (bits.length - 1 - k)) := by
    intro k hk
    have hlt := List.mem_range.1 hk
    rw [List.getD_append _ _ _ _ hlt, show bits.length - k = bits.length - 1 - k + 1 by omega, pow_succ]
    ring
  have hlast : ((bits ++ [b]).getD bits.length false).toNat * 2 ^ (bits.length - bits.length) = b.toNat := by simp
  rw [msbFirst, List.length_append, List.length_singleton, Nat.add_sub_cancel, List.range_succ, List.map_append,
    List.sum_append, List.map_congr_left hterm, List.sum_map_mul_left, List.map_singleton, List.sum_singleton, hlast,
    msbFirst]

theorem msbFirst_lt (bits : List Bool) : msbFirst bits < 2 ^ bits.length := by
  induction bits using List.reverseRecOn with
  | nil => decide
  | append_singleton bits b ih =>
    rw [msbFirst_append, List.length_append, List.length_singleton, pow_succ]
    have hb := b.toNat_lt
    omega

/-- Up to 24 bits nothing is shifted out, and the assembly is the number the bits stand for (R97). -/
theorem assemble_toNat {bits : List Bool} (hlen : bits.length ≤ 24) : (assemble bits).toNat = msbFirst bits := by
  induction bits using List.reverseRecOn with
  | nil => rfl
  | append_singleton bits b ih =>
    rw [List.length_append, List.length_singleton] at hlen
    have hfit : msbFirst bits < 2 ^ 23 :=
      (msbFirst_lt bits).trans_le (Nat.pow_le_pow_right Nat.two_pos (Nat.le_of_succ_le_succ hlen))
    rw [← ih (Nat.le_of_succ_le hlen)] at hfit
    rw [assemble_append, shiftIn_toNat b hfit, ih (Nat.le_of_succ_le hlen), msbFirst_append]

/-- Settles O22: the k-th bit lands in `raw[24 - k]`, which gives the round trips, and each shift doubles the value. -/
theorem assembleReadsMsbFirst : Obligations.AssembleReadsMsbFirst := by
  refine ⟨assemble_bitsOf, fun bits => ?_, fun bits hlen => ⟨?_, fun k => assemble_getLsbD_msbFirst hlen,
    bitsOf_assemble hlen⟩⟩
  · rw [assemble, funext₂ shiftIn_eq_or]
  · rw [assemble_toNat hlen.le, msbFirst, hlen]

end Sys2Proof.Proofs
end

section
/-! SUPPORT. The statements about one tick of the pulse driver (40_pulse_driver.md): SETH, SETL and HOLD. -/

namespace Sys2Proof.Proofs

open Sys2Proof.Machine Sys2Proof.Safety Sys2Proof.Laws

theorem phaseAfterSeth_eq (p : SamplePoint) (g : Slot) :
    phaseAfterSeth p g = if g = .data ∧ p = .beforeHighHold then 2 else 1 := by cases p <;> cases g <;> rfl

theorem phaseAfterDataHigh_eq (p : SamplePoint) :
    phaseAfterDataHigh p = if p = .beforeHighHold then 3 else 2 := by cases p <;> rfl

/-- A slot counter below a bound of its own width does not wrap (R25, R26). -/
theorem toNat_add_one_of_lt {w : Nat} {x : BitVec w} {n : Nat} (hn : n ≤ 2 ^ w) (hx : x.toNat + 1 < n) :
    (x + 1).toNat = x.toNat + 1 := by
  have hlt : x.toNat + 1 < 2 ^ w := by omega
  have hone : (1 : BitVec w).toNat = 1 := BitVec.toNat_one (Nat.pos_of_ne_zero (Nat.one_lt_two_pow_iff.1 (by omega)))
  rw [BitVec.toNat_add_of_lt (by rw [hone]; exact hlt), hone]

/-- Settles O13: SETH drives the pin high, or aborts. -/
theorem sethDrivesTheClockHigh : Obligations.SethDrivesTheClockHigh := by
  intro g s
  rw [← phaseAfterSeth_eq]
  exact ⟨fun hf => effect_exec (.seth g s hf), fun hf => effect_exec (.sethFault g s hf)⟩

/-- Settles O14: SETL drives the pin low, or aborts. -/
theorem setlDrivesTheClockLow : Obligations.SetlDrivesTheClockLow :=
  fun g s => ⟨fun hf => effect_exec (.setl g s hf), fun hf => effect_exec (.setlFault g s hf)⟩

/-- Settles O15: HOLD counts down from above 1 and has no meaning at 0. -/
theorem holdCountsDown : Obligations.HoldCountsDown :=
  fun g l s => ⟨fun h => effect_exec (.holdRunning g l s h), execHold_refused g l⟩

/-- Settles O16: one effect of a last HOLD tick for each half, slot kind and slot count. -/
theorem holdEndsIntoTheNextSlot : Obligations.HoldEndsIntoTheNextSlot := by
  intro s h
  rw [← phaseAfterDataHigh_eq]
  refine ⟨effect_exec (.holdDataHigh s h), effect_exec (.holdGainHigh s h),
    fun hb => effect_exec (.holdDataLast s h hb), fun hb => ?_, fun hn => ?_, fun hn => ?_⟩
  · have hne : s.bitIdx ≠ 23 := fun he => by simp [he] at hb
    exact ⟨_, effect_exec (.holdDataNext s h hne), toNat_add_one_of_lt (n := 24) (by decide) (by omega), rfl⟩
  · exact ⟨_, effect_exec (.holdGainLast s h hn), rfl, frameDone_synced s.nCur, frameDone_cut s.nCur⟩
  · exact ⟨_, effect_exec (.holdGainNext s h hn.ne), toNat_add_one_of_lt s.nCur.isLt.le hn, rfl⟩

end Sys2Proof.Proofs
end

section
/-! SUPPORT. Runs of several ticks seen from the sequencer alone: what CFG, the strobes and the environment write is
left out, and each stage of a pulse becomes one function on what remains. -/

namespace Sys2Proof.Proofs

open Sys2Proof.Machine Sys2Proof.Safety Sys2Proof.Laws

/-! ## The sequencer's part of a state -/

/-- `s` without the ports and without what CFG and the frame of a tick write: what a sequencer primitive but LATG
computes with, its input ports aside (R180). -/
def sequencerPart (s : State) : State :=
  { s with
    cfgGain := 0, cfgHold := 0, cfgTimeout := 0, sampleValid := false, errValid := false, cfgRej := false,
    history := sequencerHistory s, inp := Inputs.quiet, script := [], tick := 0 }

/-- The frame of a tick is not the sequencer's: CFG and the levels of the next tick leave its part as it was. -/
theorem sequencerPart_tickEnd (s : State) : sequencerPart (endTick (afterConfig s)) = sequencerPart s := by
  have hh : sequencerHistory (endTick (afterConfig s)) = sequencerHistory s := afterConfig_sequencerHistory s
  simp [sequencerPart, hh]

/-- The state after SETH or SETL has driven the clock (R120, R121). -/
def clockDriven (v : Bool) (e : Event) (g : Slot) (ph : BitVec 3) (s : State) : State :=
  { s with clock := v, pin := .driven v, holdCnt := s.holdCur, history := s.history ++ [e], st := g.st, ph := ph }

/-- The state after the last tick of a HOLD (R122). -/
def holdDone (g : Slot) (l : HoldHalf) (s : State) : State :=
  nextAfterHold g l (record (.hold s.holdCur) { s with holdCnt := 0 })

theorem sequencerPart_record {e : Event} (he : ofSequencer e = true) (s : State) :
    sequencerPart (record e s) = record e (sequencerPart s) := by
  simp [sequencerPart, sequencerHistory, record, he]

theorem sequencerPart_clockDriven {e : Event} (he : ofSequencer e = true) (v : Bool) (g : Slot) (ph : BitVec 3)
    (s : State) : sequencerPart (clockDriven v e g ph s) = clockDriven v e g ph (sequencerPart s) := by
  simp [sequencerPart, clockDriven, sequencerHistory, he]

theorem sequencerPart_nextAfterHold (g : Slot) (l : HoldHalf) (s : State) :
    sequencerPart (nextAfterHold g l s) = nextAfterHold g l (sequencerPart s) := by
  match g, l with
  | .data, .high | .gain, .high => rfl
  | .data, .low =>
    by_cases hb : s.bitIdx = 23
    · rw [nextAfterHold, nextAfterHold, endDataSlot_last hb, endDataSlot_last (by exact hb)]; rfl
    · rw [nextAfterHold, nextAfterHold, endDataSlot_next hb, endDataSlot_next (by exact hb)]; rfl
  | .gain, .low =>
    by_cases hn : s.pulseIdx.toNat + 1 = s.nCur.toNat
    · rw [nextAfterHold, nextAfterHold, endGainSlot_last hn, endGainSlot_last (by exact hn)]; rfl
    · rw [nextAfterHold, nextAfterHold, endGainSlot_next hn, endGainSlot_next (by exact hn)]; rfl

theorem sequencerPart_holdDone (g : Slot) (l : HoldHalf) (s : State) :
    sequencerPart (holdDone g l s) = holdDone g l (sequencerPart s) := by
  rw [holdDone, sequencerPart_nextAfterHold, sequencerPart_record rfl]
  rfl

/-- The end of a gain slot writes the word, `pulse_idx` and the converter only (R183). -/
theorem endGainSlot_frame (s : State) :
    endGainSlot s = { s with
      st := (endGainSlot s).st, ph := (endGainSlot s).ph, pulseIdx := (endGainSlot s).pulseIdx,
      conv := (endGainSlot s).conv } := by
  by_cases hn : s.pulseIdx.toNat + 1 = s.nCur.toNat
  · rw [endGainSlot_last hn]
  · rw [endGainSlot_next hn]

/-- The end of a hold writes the word, the slot counters and the converter only (R181 to R183). -/
theorem nextAfterHold_frame (g : Slot) (l : HoldHalf) (s : State) :
    nextAfterHold g l s = { s with
      st := (nextAfterHold g l s).st, ph := (nextAfterHold g l s).ph, bitIdx := (nextAfterHold g l s).bitIdx,
      pulseIdx := (nextAfterHold g l s).pulseIdx, conv := (nextAfterHold g l s).conv } := by
  match g, l with
  | .data, .high | .gain, .high => rfl
  | .data, .low =>
    by_cases hb : s.bitIdx = 23
    · rw [nextAfterHold, endDataSlot_last hb]
    · rw [nextAfterHold, endDataSlot_next hb]
  | .gain, .low => rw [nextAfterHold, endGainSlot_frame]

/-! ## Runs -/

/-- A run of `k` ticks from `s` answers with a legal state whose sequencer's part is `v`. -/
def Reaches (k : Nat) (s v : State) : Prop := ∃ t, run k s = .next t ∧ Legal t ∧ sequencerPart t = v

theorem reaches_zero {s : State} (hl : Legal s) : Reaches 0 s (sequencerPart s) := ⟨s, run_zero s, hl, rfl⟩

theorem run_inputAt {k : Nat} {s t : State} (h : run k s = .next t) (j : Nat) : t.inputAt j = s.inputAt (k + j) := by
  induction k generalizing s with
  | zero => cases h; rw [Nat.zero_add]
  | succ k ih =>
    rw [run_succ_eq] at h
    obtain ⟨u, hu, hrun⟩ := andThen_eq_next h
    rw [ih hrun, step_inputAt hu, Nat.add_right_comm]

section
variable {a : Nat} {s v w : State} {i : Instr} {g : Slot} {l : HoldHalf}

/-- A legal sequencer is stopped in Idle only (R45 (g)). -/
theorem Reaches.running (h : Reaches a s v) (hst : v.st ≠ .idle) : v.stopped = false := by
  obtain ⟨t, -, ⟨-, -, -, -, -, -, -, hstop, -⟩, rfl⟩ := h
  exact Bool.eq_false_iff.2 fun hs => hst (hstop hs).1

/-- A further tick without reset runs the primitive of the word that was reached, at the levels of that tick. -/
theorem Reaches.tick (h : Reaches a s v) (hs : v.stopped = false) (hw : Selects v.st v.ph i)
    (hr : (s.inputAt a).rst = false)
    (hu : ∀ t, sequencerPart t = v → t.inp = s.inputAt a → ∃ u, Effect i t u ∧ sequencerPart u = w) :
    Reaches (a + 1) s w := by
  obtain ⟨t, ht, hl, rfl⟩ := h
  have hin : t.inp = s.inputAt a := run_inputAt ht 0
  obtain ⟨u, he, rfl⟩ := hu (beginTick t) rfl hin
  have hstep := step_exec hl.1 (hin ▸ hr) (legal_meaningful hl) hs (selects_decode hw) (effect_exec he)
  refine ⟨_, ?_, step_keeps_legal hl hstep, sequencerPart_tickEnd u⟩
  rw [run_add, ht, andThen_next, run_one, hstep]

theorem slot_st_ne_idle (g : Slot) : g.st ≠ .idle := by cases g <;> decide

theorem Reaches.seth (h : Reaches a s v) (hw : Selects v.st v.ph (.seth g))
    (hin : (s.inputAt a).rst = false ∧ (s.inputAt a).pinFault = false) :
    Reaches (a + 1) s (clockDriven true .ckHi g (phaseAfterSeth v.params.samplePoint g) v) := by
  have hst : v.st = g.st := (selects_fetchedAt hw).1
  refine h.tick (h.running (hst ▸ slot_st_ne_idle g)) hw hin.1 fun t hv ht => ?_
  subst hv
  exact ⟨_, .seth g t (ht ▸ hin.2), sequencerPart_clockDriven rfl true g _ t⟩

theorem Reaches.setl (h : Reaches a s v) (hw : Selects v.st v.ph (.setl g))
    (hin : (s.inputAt a).rst = false ∧ (s.inputAt a).pinFault = false) :
    Reaches (a + 1) s (clockDriven false .ckLo g 5 v) := by
  have hst : v.st = g.st := (selects_fetchedAt hw).1
  refine h.tick (h.running (hst ▸ slot_st_ne_idle g)) hw hin.1 fun t hv ht => ?_
  subst hv
  exact ⟨_, .setl g t (ht ▸ hin.2), sequencerPart_clockDriven rfl false g 5 t⟩

/-! ## HOLD -/

theorem selects_hold_st {st : St} {ph : BitVec 3} (hw : Selects st ph (.hold g l)) : st = g.st := by cases hw <;> rfl

/-- R27: a legal HOLD has a loaded counter. -/
theorem Reaches.hold_loaded (h : Reaches a s v) (hw : Selects v.st v.ph (.hold g l)) : v.holdCnt ≠ 0 := by
  obtain ⟨t, -, ⟨-, -, -, -, -, -, -, -, -, hh, -⟩, rfl⟩ := h
  have hf := selects_fetchedAt hw
  have hloaded : holdLoadedWord t.params.samplePoint (sequencerPart t).st (sequencerPart t).ph = true := by
    cases l <;> simp only [hf.1, hf.2, holdLoadedWord_slot] <;> rfl
  exact ((holdCounter_loaded hloaded).1 hh).1

theorem Reaches.holdRunning (h : Reaches a s v) (hw : Selects v.st v.ph (.hold g l))
    (hr : (s.inputAt a).rst = false) (hc : 1 < v.holdCnt.toNat) :
    Reaches (a + 1) s { v with holdCnt := v.holdCnt - 1 } := by
  refine h.tick (h.running (selects_hold_st hw ▸ slot_st_ne_idle g)) hw hr fun t hv _ => ?_
  subst hv
  exact ⟨_, .holdRunning g l t hc, rfl⟩

theorem Reaches.holdLast (h : Reaches a s v) (hw : Selects v.st v.ph (.hold g l))
    (hr : (s.inputAt a).rst = false) (hc : v.holdCnt = 1) : Reaches (a + 1) s (holdDone g l v) := by
  refine h.tick (h.running (selects_hold_st hw ▸ slot_st_ne_idle g)) hw hr fun t hv _ => ?_
  subst hv
  exact ⟨_, execHold_effect (execHold_last g l hc), sequencerPart_holdDone g l t⟩

theorem toNat_sub_ofNat {x : HoldTicks} {n : Nat} (hn : n ≤ x.toNat) :
    (x - BitVec.ofNat 16 n).toNat = x.toNat - n := by
  have := x.isLt
  bv_omega

/-- Before its last tick a HOLD has done nothing but count (R122). -/
theorem Reaches.holdTicks {n : Nat} (h : Reaches a s v) (hw : Selects v.st v.ph (.hold g l))
    (hr : ∀ k, a ≤ k → k < a + n → (s.inputAt k).rst = false) (hn : n < v.holdCnt.toNat) :
    Reaches (a + n) s { v with holdCnt := v.holdCnt - BitVec.ofNat 16 n } := by
  induction n with
  | zero => simpa using h
  | succ n ih =>
    have hdown : v.holdCnt - BitVec.ofNat 16 (n + 1) = v.holdCnt - BitVec.ofNat 16 n - 1 := by bv_omega
    have hleft : 1 < (v.holdCnt - BitVec.ofNat 16 n).toNat := by rw [toNat_sub_ofNat (by omega)]; omega
    rw [hdown]
    exact (ih (fun k hk hlt => hr k hk (by omega)) (by omega)).holdRunning hw (hr _ (by omega) (by omega)) hleft

/-- A HOLD runs for as many ticks as its counter says and then ends (R122, R181). -/
theorem Reaches.hold (h : Reaches a s v) (hw : Selects v.st v.ph (.hold g l))
    (hr : ∀ k, a ≤ k → k < a + v.holdCnt.toNat → (s.inputAt k).rst = false) :
    Reaches (a + v.holdCnt.toNat) s (holdDone g l v) := by
  have hpos := BitVec.toNat_pos_of_ne_zero (h.hold_loaded hw)
  obtain ⟨n, hn⟩ : ∃ n, v.holdCnt.toNat = n + 1 := ⟨v.holdCnt.toNat - 1, by omega⟩
  have hone : v.holdCnt - BitVec.ofNat 16 n = 1 := by bv_omega
  rw [hn] at hr ⊢
  exact (h.holdTicks hw (fun k hk hlt => hr k hk (by omega)) (by omega)).holdLast hw (hr _ (by omega) (by omega)) hone

end

/-- Settles O17: before its last tick a HOLD only counts, and a legal state with an empty counter is in no HOLD. -/
theorem holdLastsItsCounter : Obligations.HoldLastsItsCounter := by
  intro s g l hl _ hd hr
  have hw : Selects (sequencerPart s).st (sequencerPart s).ph (.hold g l) := decode_selects hd
  refine ⟨fun j hj => ?_, ?_⟩
  · have hticks := (reaches_zero hl).holdTicks hw (fun k _ hk => hr k (by omega)) hj
    rw [Nat.zero_add] at hticks
    obtain ⟨t, ht, -, hv⟩ := hticks
    have hcnt : t.holdCnt = s.holdCnt - BitVec.ofNat 16 j := (congrArg State.holdCnt hv :)
    exact ⟨t, ht, (congrArg State.seqWord hv :), by rw [hcnt, toNat_sub_ofNat hj.le], (congrArg State.clock hv :)⟩
  · have hend := (reaches_zero hl).hold hw fun k _ (hk : k < 0 + s.holdCnt.toNat) => hr k (by omega)
    rw [Nat.zero_add, holdDone, nextAfterHold_frame] at hend
    obtain ⟨t, ht, hlt, hv⟩ := hend
    have hcnt : t.holdCnt = 0 := (congrArg State.holdCnt hv :)
    refine ⟨t, ht, hcnt, fun hword => ?_, (congrArg State.clock hv :), (congrArg State.history hv :)⟩
    exact (reaches_zero hlt).hold_loaded (decode_selects (hword ▸ hd)) hcnt

/-! ## PULSE in a gain slot -/

/-- The state at the end of a gain slot's pulse, before the sequencer goes on (R123). -/
def pulseDone (s : State) : State :=
  { s with
    clock := false, pin := .driven false, holdCnt := 0, history := s.history ++ pulseEvents s.holdCur,
    st := .gainSelect, ph := 5 }

theorem pulse_stages (s : State) :
    holdDone .gain .low (clockDriven false .ckLo .gain 5 (holdDone .gain .high (clockDriven true .ckHi .gain 1 s))) =
      endGainSlot (pulseDone s) := by
  have hh : s.history ++ pulseEvents s.holdCur =
      s.history ++ [Event.ckHi] ++ [Event.hold s.holdCur] ++ [Event.ckLo] ++ [Event.hold s.holdCur] := by
    simp [pulseEvents]
  rw [pulseDone, hh]
  rfl

/-- SETH, HOLD, SETL, HOLD (R123), and the end of the slot (R183). -/
theorem Reaches.pulse {a : Nat} {s v : State} (h : Reaches a s v) (hst : v.st = .gainSelect) (hph : v.ph = 0)
    (hq : ∀ k, a ≤ k → k < a + gainSlotTicks v.holdCur.toNat →
      (s.inputAt k).rst = false ∧ (s.inputAt k).pinFault = false) :
    Reaches (a + gainSlotTicks v.holdCur.toNat) s (endGainSlot (pulseDone v)) := by
  have hticks : a + gainSlotTicks v.holdCur.toNat = a + 1 + v.holdCur.toNat + 1 + v.holdCur.toNat := by
    simp only [gainSlotTicks]; omega
  rw [hticks] at hq ⊢
  have hrise := h.seth (g := .gain) (by rw [hst, hph]; exact .sethGain) (hq a (by omega) (by omega))
  rw [phaseAfterSeth_gain] at hrise
  have hhigh := hrise.hold .holdGainHigh fun k hk (hlt : k < a + 1 + v.holdCur.toNat) =>
    (hq k (by omega) (by omega)).1
  have hfall := hhigh.setl .setlGain (hq (a + 1 + v.holdCur.toNat) (by omega) (by omega))
  have hlow := hfall.hold .holdGainLow fun k hk (hlt : k < a + 1 + v.holdCur.toNat + 1 + v.holdCur.toNat) =>
    (hq k (by omega) (by omega)).1
  rwa [pulse_stages] at hlow

/-- Settles O53: the pulse, then the end of its slot. -/
theorem pulseInAGainSlot : Obligations.PulseInAGainSlot := by
  intro s hl hs hst hph hq
  have hpulse := (reaches_zero hl).pulse hst hph fun k _ (hk : k < 0 + gainSlotTicks s.holdCur.toNat) => hq k (by omega)
  rw [Nat.zero_add] at hpulse
  obtain ⟨t, ht, -, hv⟩ := hpulse
  have hkeep := hv.trans (endGainSlot_frame _)
  refine ⟨t, ht, (congrArg State.history hkeep :), (congrArg State.clock hkeep :), (congrArg State.raw hkeep :),
    (congrArg State.sample hkeep :), (congrArg State.bitIdx hkeep :), (congrArg State.nCur hkeep :),
    (congrArg State.holdCur hkeep :), (congrArg State.err hkeep :), (congrArg State.stopped hkeep :).trans hs,
    fun hn => ?_, fun hn => ?_⟩
  · rw [endGainSlot_last (by exact hn)] at hv
    exact ⟨(congrArg State.st hv :), (congrArg State.ph hv :), (congrArg State.pulseIdx hv :),
      (congrArg State.conv hv :)⟩
  · rw [endGainSlot_next (by exact hn.ne)] at hv
    have hidx : t.pulseIdx = s.pulseIdx + 1 := (congrArg State.pulseIdx hv :)
    exact ⟨(congrArg State.st hv :), (congrArg State.ph hv :), hidx ▸ toNat_add_one_of_lt s.nCur.isLt.le hn,
      (congrArg State.conv hv :)⟩

end Sys2Proof.Proofs
end

section
/-! SUPPORT. The statements about one tick of the bit assembler (41_bit_assembler.md): RDY, CLR, SAMP and SHIN. -/

namespace Sys2Proof.Proofs

open Sys2Proof.Machine Sys2Proof.Safety Sys2Proof.Laws

theorem ofNat_readyCnt_add_one (c : ReadyTicks) : BitVec.ofNat 32 (c.toNat + 1) = c + 1 := by
  simp [BitVec.ofNat_add]

theorem phaseAfterSamp_eq (p : SamplePoint) : phaseAfterSamp p = if p = .beforeHighHold then 1 else 3 := by
  cases p <;> rfl

/-- Settles O18: one effect of RDY for each way a poll or a tick of the settle delay can end. -/
theorem rdyWaitsForReady : Obligations.RdyWaitsForReady := by
  intro s
  rw [← ofNat_readyCnt_add_one]
  refine ⟨fun hm => ⟨fun hf => ?_, fun hf hd => ?_, fun hf hd hc => ?_, fun hf hd hc => ?_⟩,
    fun hm => ⟨fun hc => ?_, fun hc => ?_⟩⟩
  · exact effect_exec (.rdyFault s hm hf)
  · exact effect_exec (.rdyReady s hm hf hd)
  · exact effect_exec (.rdyWait s hm hf hd hc)
  · rw [List.append_cons]
    exact effect_exec (.rdyTimeout s hm hf hd hc)
  · exact effect_exec (.rdySettled s hm hc)
  · exact effect_exec (.rdySettling s hm hc)

/-- Settles O19: the effect of CLR. -/
theorem clrStartsTheFrame : Obligations.ClrStartsTheFrame := fun s => effect_exec (.clr s)

/-- Settles O20: SAMP latches the level that PinRead gives, or aborts. -/
theorem sampLatchesData : Obligations.SampLatchesData := by
  intro s
  rw [← phaseAfterSamp_eq]
  exact ⟨fun hf => effect_exec (.samp s hf), fun hf => effect_exec (.sampFault s hf)⟩

/-- The shift-in as arithmetic: double, add the bit, drop what leaves 24 bits (R143). -/
theorem shiftIn_toNat_mod (raw : RawSample) (b : Bool) :
    (shiftIn raw b).toNat = (2 * raw.toNat + b.toNat) % 2 ^ 24 := by
  rw [shiftIn, BitVec.toNat_append, BitVec.toNat_ofBool, ← Nat.shiftLeft_add_eq_or_of_lt b.toNat_lt,
    BitVec.extractLsb'_toNat, Nat.shiftRight_zero, Nat.shiftLeft_eq]
  have hb := b.toNat_lt
  omega

/-- Settles O21: up to 24 bits the shifts assemble the number they spell, and one shift moves every bit up by one. -/
theorem shinShiftsMsbFirst : Obligations.ShinShiftsMsbFirst :=
  ⟨fun _ hlen => assemble_toNat hlen, fun s => ⟨_, effect_exec (.shin s), rfl, shiftIn_eq_or _ _,
    shiftIn_toNat_mod _ _, shiftIn_getLsbD_zero _ _, fun _ => shiftIn_getLsbD_succ _ _, rfl⟩⟩

end Sys2Proof.Proofs
end

section
/-! SUPPORT. Data slots: BITCYC as one function on the sequencer's part of a state, and TRAIN as its repetition. -/

namespace Sys2Proof.Proofs

open Sys2Proof.Machine Sys2Proof.Safety Sys2Proof.Laws

/-! ## SAMP and SHIN in a run -/

/-- The state after SAMP has read `b` (R142). -/
def bitLatched (b : Bool) (s : State) : State :=
  { s with
    bitLatch := b, history := s.history ++ [.rd b], st := .pulseTrain, ph := phaseAfterSamp s.params.samplePoint }

/-- The state after SHIN (R143). -/
def bitShifted (s : State) : State := { s with raw := shiftIn s.raw s.bitLatch, st := .pulseTrain, ph := 4 }

theorem sequencerPart_bitLatched (b : Bool) (s : State) :
    sequencerPart (bitLatched b s) = bitLatched b (sequencerPart s) := by
  have he : ofSequencer (.rd b) = true := rfl
  simp [sequencerPart, bitLatched, sequencerHistory, he]

section
variable {a : Nat} {s v : State} {b : Bool}

theorem Reaches.samp (h : Reaches a s v) (hw : Selects v.st v.ph .samp)
    (hin : (s.inputAt a).rst = false ∧ (s.inputAt a).pinFault = false) (hb : (s.inputAt a).data = b) :
    Reaches (a + 1) s (bitLatched b v) := by
  have hst : v.st = .pulseTrain := (selects_fetchedAt hw).1
  refine h.tick (h.running (hst ▸ slot_st_ne_idle .data)) hw hin.1 fun t hv ht => ?_
  subst hv hb
  have he : Effect .samp t (bitLatched t.inp.data t) := .samp t (ht ▸ hin.2)
  rw [ht] at he
  exact ⟨_, he, sequencerPart_bitLatched _ t⟩

theorem Reaches.shin (h : Reaches a s v) (hw : Selects v.st v.ph .shin) (hr : (s.inputAt a).rst = false) :
    Reaches (a + 1) s (bitShifted v) := by
  have hst : v.st = .pulseTrain := (selects_fetchedAt hw).1
  refine h.tick (h.running (hst ▸ slot_st_ne_idle .data)) hw hr fun t hv _ => ?_
  subst hv
  exact ⟨_, .shin t, rfl⟩

/-! ## The high phase of a data slot -/

/-- The events of a data slot up to the bit read and the high level held (R142). -/
def highEvents (p : SamplePoint) (h : HoldTicks) (b : Bool) : List Event :=
  match p with
  | .afterHighHold => [.ckHi, .hold h, .rd b]
  | .beforeHighHold => [.ckHi, .rd b, .hold h]

theorem bitEvents_eq (p : SamplePoint) (h : HoldTicks) (b : Bool) :
    bitEvents p h b = highEvents p h b ++ [.ckLo, .hold h] := by cases p <;> rfl

/-- The state of a data slot before SHIN: `b` is read and the high level held, in either order (R142). -/
def highPhaseDone (b : Bool) (s : State) : State :=
  { s with
    clock := true, pin := .driven true, holdCnt := 0, bitLatch := b,
    history := s.history ++ highEvents s.params.samplePoint s.holdCur b, st := .pulseTrain, ph := 3 }

theorem highPhase_afterHighHold (hp : v.params.samplePoint = .afterHighHold) :
    bitLatched b (holdDone .data .high (clockDriven true .ckHi .data (phaseAfterSeth v.params.samplePoint .data) v)) =
      highPhaseDone b v := by
  simp [bitLatched, holdDone, nextAfterHold, goto, record, clockDriven, highPhaseDone, hp, phaseAfterSamp, highEvents]

theorem highPhase_beforeHighHold (hp : v.params.samplePoint = .beforeHighHold) :
    holdDone .data .high (bitLatched b (clockDriven true .ckHi .data (phaseAfterSeth v.params.samplePoint .data) v)) =
      highPhaseDone b v := by
  simp [bitLatched, holdDone, nextAfterHold, goto, record, clockDriven, highPhaseDone, hp, phaseAfterDataHigh,
    highEvents]

/-- SETH, then HOLD and SAMP in the order of SAMPLE_POINT (R142, R144). -/
theorem Reaches.highPhase (h : Reaches a s v) (hst : v.st = .pulseTrain) (hph : v.ph = 0)
    (hq : ∀ k, a ≤ k → k < a + (2 + v.holdCur.toNat) →
      (s.inputAt k).rst = false ∧ (s.inputAt k).pinFault = false)
    (hb : (s.inputAt (a + sampleTick v.params.samplePoint v.holdCur.toNat)).data = b) :
    Reaches (a + (2 + v.holdCur.toNat)) s (highPhaseDone b v) := by
  have hrise := h.seth (g := .data) (by rw [hst, hph]; exact .sethData) (hq a (by omega) (by omega))
  cases hp : v.params.samplePoint with
  | afterHighHold =>
    rw [hp, sampleTick, ← Nat.add_assoc] at hb
    have hhigh : Selects .pulseTrain (phaseAfterSeth v.params.samplePoint .data) (.hold .data .high) := by
      rw [hp]; exact .holdDataHigh
    have hsamp : Selects .pulseTrain (phaseAfterDataHigh v.params.samplePoint) .samp := by rw [hp]; exact .samp
    have hheld := hrise.hold hhigh fun k hk (hlt : k < a + 1 + v.holdCur.toNat) => (hq k (by omega) (by omega)).1
    have hread := hheld.samp hsamp (hq (a + 1 + v.holdCur.toNat) (by omega) (by omega)) hb
    rw [highPhase_afterHighHold hp] at hread
    rwa [show a + (2 + v.holdCur.toNat) = a + 1 + v.holdCur.toNat + 1 by omega]
  | beforeHighHold =>
    rw [hp, sampleTick] at hb
    have hsamp : Selects .pulseTrain (phaseAfterSeth v.params.samplePoint .data) .samp := by rw [hp]; exact .samp
    have hhigh : Selects .pulseTrain (phaseAfterSamp v.params.samplePoint) (.hold .data .high) := by
      rw [hp]; exact .holdDataHigh
    have hread := hrise.samp hsamp (hq (a + 1) (by omega) (by omega)) hb
    have hheld := hread.hold hhigh fun k hk (hlt : k < a + 1 + 1 + v.holdCur.toNat) => (hq k (by omega) (by omega)).1
    rw [highPhase_beforeHighHold hp] at hheld
    rwa [show a + (2 + v.holdCur.toNat) = a + 1 + 1 + v.holdCur.toNat by omega]

/-! ## BITCYC -/

/-- What reading `bits` in as many data slots leaves, but for the word and the slot counters (R144, R145). -/
def bitsRead (bits : List Bool) (s : State) : State :=
  { s with
    raw := bits.foldl shiftIn s.raw, bitLatch := bits.getLastD s.bitLatch, clock := false, pin := .driven false,
    holdCnt := 0, history := s.history ++ bits.flatMap (bitEvents s.params.samplePoint s.holdCur) }

/-- The state at the end of a data slot's pulse, before the sequencer goes on (R144). -/
def bitDone (b : Bool) (s : State) : State := { bitsRead [b] s with st := .pulseTrain, ph := 5 }

theorem bitCycle_stages (b : Bool) (s : State) :
    holdDone .data .low (clockDriven false .ckLo .data 5 (bitShifted (highPhaseDone b s))) =
      endDataSlot (bitDone b s) := by
  simp [bitDone, holdDone, nextAfterHold, record, clockDriven, bitShifted, highPhaseDone, bitsRead, bitEvents_eq,
    Slot.st]

/-- The high phase, SHIN, SETL, HOLD (R144), and the end of the slot (R182). -/
theorem Reaches.bitCycle (h : Reaches a s v) (hst : v.st = .pulseTrain) (hph : v.ph = 0)
    (hq : ∀ k, a ≤ k → k < a + dataSlotTicks v.holdCur.toNat →
      (s.inputAt k).rst = false ∧ (s.inputAt k).pinFault = false)
    (hb : (s.inputAt (a + sampleTick v.params.samplePoint v.holdCur.toNat)).data = b) :
    Reaches (a + dataSlotTicks v.holdCur.toNat) s (endDataSlot (bitDone b v)) := by
  have hticks : a + dataSlotTicks v.holdCur.toNat = a + (2 + v.holdCur.toNat) + 1 + 1 + v.holdCur.toNat := by
    simp only [dataSlotTicks]; omega
  rw [hticks] at hq ⊢
  have hhigh := h.highPhase hst hph (fun k hk hlt => hq k hk (by omega)) hb
  have hshift := hhigh.shin .shin (hq _ (by omega) (by omega)).1
  have hfall := hshift.setl .setlData (hq _ (by omega) (by omega))
  have hlow := hfall.hold .holdDataLow fun k hk (hlt : k < a + (2 + v.holdCur.toNat) + 1 + 1 + v.holdCur.toNat) =>
    (hq k (by omega) (by omega)).1
  rwa [bitCycle_stages] at hlow

end

/-- The end of a data slot writes the word and the slot counters only (R182). -/
theorem endDataSlot_frame (s : State) :
    endDataSlot s = { s with
      st := (endDataSlot s).st, ph := (endDataSlot s).ph, bitIdx := (endDataSlot s).bitIdx,
      pulseIdx := (endDataSlot s).pulseIdx } := by
  by_cases hb : s.bitIdx = 23
  · rw [endDataSlot_last hb]
  · rw [endDataSlot_next hb]

/-- Settles O54: the bit cycle, then the end of its slot. -/
theorem bitCycleInADataSlot : Obligations.BitCycleInADataSlot := by
  intro s b hl hs hst hph hq hb
  have hcycle := (reaches_zero hl).bitCycle (b := b) hst hph
    (fun k _ (hk : k < 0 + dataSlotTicks s.holdCur.toNat) => hq k (by omega)) (by rw [Nat.zero_add]; exact hb)
  rw [Nat.zero_add] at hcycle
  obtain ⟨t, ht, -, hv⟩ := hcycle
  have hkeep := hv.trans (endDataSlot_frame _)
  have hhist : sequencerHistory t = sequencerHistory s ++ [b].flatMap (bitEvents s.params.samplePoint s.holdCur) :=
    (congrArg State.history hkeep :)
  rw [List.flatMap_singleton] at hhist
  refine ⟨t, ht, hhist, (congrArg State.clock hkeep :), (congrArg State.raw hkeep :),
    (congrArg State.bitLatch hkeep :), (congrArg State.sample hkeep :), (congrArg State.nCur hkeep :),
    (congrArg State.holdCur hkeep :), (congrArg State.err hkeep :), (congrArg State.stopped hkeep :).trans hs,
    (congrArg State.conv hkeep :), fun hn => ?_, fun hn => ?_⟩
  · have hne : s.bitIdx ≠ 23 := fun he => by simp [he] at hn
    rw [endDataSlot_next (by exact hne)] at hv
    have hidx : t.bitIdx = s.bitIdx + 1 := (congrArg State.bitIdx hv :)
    exact ⟨(congrArg State.st hv :), (congrArg State.ph hv :),
      hidx ▸ toNat_add_one_of_lt (n := 24) (by decide) (by omega)⟩
  · rw [endDataSlot_last (by exact hn)] at hv
    exact ⟨(congrArg State.st hv :), (congrArg State.ph hv :), (congrArg State.bitIdx hv :).trans hn,
      (congrArg State.pulseIdx hv :)⟩

/-! ## TRAIN -/

/-- The state at the end of the data slots that read `bits`, where GainSelect begins (R145, R182). -/
def trainDone (bits : List Bool) (s : State) : State :=
  { bitsRead bits s with st := .gainSelect, ph := 0, bitIdx := 23, pulseIdx := 0 }

/-- The state at the start of the next data slot, after one that has read `b` (R182). -/
def nextDataSlot (b : Bool) (s : State) : State :=
  { bitsRead [b] s with st := .pulseTrain, ph := 0, bitIdx := s.bitIdx + 1 }

theorem endDataSlot_bitDone_last (b : Bool) {s : State} (h : s.bitIdx = 23) :
    endDataSlot (bitDone b s) = trainDone [b] s := by
  rw [endDataSlot_last (by exact h), trainDone, ← h]
  rfl

theorem endDataSlot_bitDone_next (b : Bool) {s : State} (h : s.bitIdx ≠ 23) :
    endDataSlot (bitDone b s) = nextDataSlot b s := by
  rw [endDataSlot_next (by exact h)]
  rfl

theorem trainDone_cons (b : Bool) (bits : List Bool) (s : State) :
    trainDone bits (nextDataSlot b s) = trainDone (b :: bits) s := by
  simp [trainDone, nextDataSlot, bitsRead, List.getLast?_cons]

/-- The data slots that are left read their bits one after the other (R145). -/
theorem Reaches.train {a : Nat} {s v : State} {bits : List Bool} (h : Reaches a s v) (hst : v.st = .pulseTrain)
    (hph : v.ph = 0) (hidx : v.bitIdx.toNat < 24) (hlen : v.bitIdx.toNat + bits.length = 24)
    (hq : ∀ k, a ≤ k → k < a + bits.length * dataSlotTicks v.holdCur.toNat →
      (s.inputAt k).rst = false ∧ (s.inputAt k).pinFault = false)
    (hd : ∀ k < bits.length, (s.inputAt (a + (k * dataSlotTicks v.holdCur.toNat +
      sampleTick v.params.samplePoint v.holdCur.toNat))).data = bits.getD k false) :
    Reaches (a + bits.length * dataSlotTicks v.holdCur.toNat) s (trainDone bits v) := by
  induction bits generalizing a v with
  | nil => exact absurd hlen hidx.ne
  | cons b bits ih =>
    rw [List.length_cons, Nat.succ_mul, Nat.add_comm (bits.length * _), ← Nat.add_assoc] at hq ⊢
    rw [List.length_cons] at hlen hd
    have hb := hd 0 (Nat.succ_pos _)
    rw [Nat.zero_mul, Nat.zero_add, List.getD_cons_zero] at hb
    have hslot := h.bitCycle hst hph (fun k hk hlt => hq k hk (by omega)) hb
    by_cases hlast : v.bitIdx = 23
    · have hnil : bits = [] := List.length_eq_zero_iff.1 (by simp [hlast] at hlen; omega)
      rw [endDataSlot_bitDone_last b hlast] at hslot
      simpa [hnil] using hslot
    · have hlt : v.bitIdx.toNat + 1 < 24 := by
        have hne : v.bitIdx.toNat ≠ 23 := fun he => hlast (BitVec.eq_of_toNat_eq he)
        omega
      have hidx' : (nextDataSlot b v).bitIdx.toNat = v.bitIdx.toNat + 1 :=
        toNat_add_one_of_lt (n := 24) (by decide) hlt
      rw [endDataSlot_bitDone_next b hlast] at hslot
      rw [← trainDone_cons]
      refine ih hslot rfl rfl (by omega) (by omega) (fun k hk hk' => hq k (by omega) hk') fun k hk => ?_
      have hdk := hd (k + 1) (by omega)
      rw [Nat.succ_mul, Nat.add_comm (k * _), Nat.add_assoc, List.getD_cons_succ, ← Nat.add_assoc a] at hdk
      exact hdk

/-- A bit of `raw` that has been shifted in does not depend on what `raw` held before (R21, R143). -/
theorem foldl_shiftIn_getLsbD (raw : RawSample) (bits : List Bool) {k : Nat} (hk : k < 24) (hlen : k < bits.length) :
    (bits.foldl shiftIn raw).getLsbD k = (assemble bits).getLsbD k := by
  induction bits using List.reverseRecOn generalizing k with
  | nil => simp at hlen
  | append_singleton bits b ih =>
    rw [assemble_append, List.foldl_concat]
    cases k with
    | zero => rw [shiftIn_getLsbD_zero, shiftIn_getLsbD_zero]
    | succ k =>
      rw [List.length_append] at hlen
      have hk' := Nat.lt_of_succ_lt_succ hk
      rw [shiftIn_getLsbD_succ _ _ hk', shiftIn_getLsbD_succ _ _ hk',
        ih (Nat.lt_of_succ_lt hk) (Nat.lt_of_succ_lt_succ hlen)]

theorem foldl_shiftIn_bitsOf (raw x : RawSample) : (bitsOf x).foldl shiftIn raw = x := by
  apply BitVec.eq_of_getLsbD_eq
  intro k hk
  rw [foldl_shiftIn_getLsbD raw _ hk (by rwa [bitsOf_length]), assemble_bitsOf]

/-- Settles O55: 24 slots from `bit_idx` 0 read the bits of `x`, and shift out whatever `raw` held. -/
theorem trainAssemblesTheSample : Obligations.TrainAssemblesTheSample := by
  intro s x hl hs hst hph hidx hq hd
  have htrain := (reaches_zero hl).train (bits := bitsOf x) hst hph
  rw [bitsOf_length, Nat.zero_add] at htrain
  obtain ⟨t, ht, -, hv⟩ := htrain (by simp [sequencerPart, hidx]) (by simp [sequencerPart, hidx])
    (fun k _ hk => hq k hk) (fun k hk => by rw [Nat.zero_add, bitsOf_getD x hk]; exact hd k hk)
  have hraw : t.raw = (bitsOf x).foldl shiftIn s.raw := (congrArg State.raw hv :)
  exact ⟨t, ht, (congrArg State.history hv :), hraw.trans (foldl_shiftIn_bitsOf _ x), (congrArg State.st hv :),
    (congrArg State.ph hv :), (congrArg State.bitIdx hv :), (congrArg State.pulseIdx hv :),
    (congrArg State.clock hv :), (congrArg State.sample hv :), (congrArg State.nCur hv :),
    (congrArg State.holdCur hv :), (congrArg State.conv hv :), (congrArg State.stopped hv :).trans hs⟩

end Sys2Proof.Proofs
end

section
/-! SUPPORT. WAITRDY: a wait as one function on the sequencer's part of a state, and its bound. -/

namespace Sys2Proof.Proofs

open Sys2Proof.Machine Sys2Proof.Safety Sys2Proof.Laws

/-- A running sequencer at RDY. -/
abbrev AtRdy (s : State) : Prop := s.stopped = false ∧ s.st = .idle ∧ s.ph = 2

theorem decode_atRdy {s : State} (h : AtRdy s) : decode (.seq s.seqWord) = .ok .rdy := by
  obtain ⟨-, hst, hph⟩ := h
  rw [State.seqWord, hst, hph]
  rfl

theorem waitLimit_poll {s : State} (h : s.params.readyMode = .poll) : waitLimit s = s.timeoutCur.toNat := by
  rw [waitLimit, h]

theorem waitLimit_fixedDelay {s : State} (h : s.params.readyMode = .fixedDelay) :
    waitLimit s = s.params.settleTicks := by rw [waitLimit, h]

/-- Both limits of a wait fit the ready counter (R7, R34). -/
theorem waitLimit_le {s : State} (hp : s.params.ok = true) : waitLimit s ≤ 2 ^ 32 := by
  cases hm : s.params.readyMode with
  | poll => exact (waitLimit_poll hm).trans_le s.timeoutCur.isLt.le
  | fixedDelay =>
    obtain ⟨-, -, -, -, -, hset⟩ := (params_ok_iff _).1 hp
    exact (waitLimit_fixedDelay hm).trans_le hset

theorem ofNat_readyCnt_toNat {s : State} {n : Nat} (hp : s.params.ok = true) (hn : n < waitLimit s) :
    (BitVec.ofNat 32 n).toNat = n := by
  rw [BitVec.toNat_ofNat, Nat.mod_eq_of_lt (hn.trans_le (waitLimit_le hp))]

/-! ## The ticks of RDY -/

section
variable {a k p : Nat} {s v w : State}

theorem Reaches.paramsOk (h : Reaches a s v) : v.params.ok = true := by
  obtain ⟨t, -, ⟨hp, -⟩, rfl⟩ := h
  exact hp

/-- The last tick of a run that reaches `v`, by itself. -/
theorem Reaches.lastTick {t : State} (h : Reaches a s v) (ht : run (a + 1) s = .next t) :
    ∃ u, step u = .next t ∧ sequencerPart u = v ∧ u.inp = s.inputAt a := by
  obtain ⟨u, hu, -, hv⟩ := h
  rw [run_add, hu, andThen_next, run_one] at ht
  exact ⟨u, ht, hv, run_inputAt hu 0⟩

theorem Reaches.rdy (h : Reaches a s v) (hv : AtRdy v) (hr : (s.inputAt a).rst = false)
    (hu : ∀ t, sequencerPart t = v → t.inp = s.inputAt a → ∃ u, Effect .rdy t u ∧ sequencerPart u = w) :
    Reaches (a + 1) s w := by
  obtain ⟨hs, hst, hph⟩ := hv
  exact h.tick hs (by rw [hst, hph]; exact .rdy) hr hu

section
variable (h : Reaches a s v) (hv : AtRdy v) (hin : (s.inputAt a).rst = false ∧ (s.inputAt a).pinFault = false)
include h hv hin

theorem Reaches.rdyReady (hm : v.params.readyMode = .poll) (hd : (s.inputAt a).data = false) :
    Reaches (a + 1) s (goto .idle 3 (record (.poll false) v)) := by
  refine h.rdy hv hin.1 fun t ht hi => ?_
  subst ht
  exact ⟨_, .rdyReady t hm (hi ▸ hin.2) (hi ▸ hd), congrArg (goto .idle 3) (sequencerPart_record rfl t)⟩

theorem Reaches.rdyWait (hm : v.params.readyMode = .poll) (hd : (s.inputAt a).data = true)
    (hc : v.readyCnt.toNat + 1 < v.timeoutCur.toNat) :
    Reaches (a + 1) s (record (.poll true) { v with readyCnt := BitVec.ofNat 32 (v.readyCnt.toNat + 1) }) := by
  refine h.rdy hv hin.1 fun t ht hi => ?_
  subst ht
  have hpart := sequencerPart_record (e := .poll true) rfl { t with readyCnt := BitVec.ofNat 32 (t.readyCnt.toNat + 1) }
  exact ⟨_, .rdyWait t hm (hi ▸ hin.2) (hi ▸ hd) hc, hpart⟩

theorem Reaches.rdyTimeout (hm : v.params.readyMode = .poll) (hd : (s.inputAt a).data = true)
    (hc : v.timeoutCur.toNat ≤ v.readyCnt.toNat + 1) :
    Reaches (a + 1) s (record (.err .readyTimeout) (record (.poll true)
      { v with readyCnt := 0, err := .readyTimeout, st := .idle, ph := 0 })) := by
  refine h.rdy hv hin.1 fun t ht hi => ?_
  subst ht
  have hpoll : ofSequencer (.poll true) = true := rfl
  have herr : ofSequencer (.err .readyTimeout) = true := rfl
  refine ⟨_, .rdyTimeout t hm (hi ▸ hin.2) (hi ▸ hd) hc, ?_⟩
  simp [sequencerPart, sequencerHistory, enterReadyTimeout, record, goto, hpoll, herr]

/-- The tick of a timeout raises the strobe (R221). -/
theorem Reaches.errValid_of_rdyTimeout {t : State} (hm : v.params.readyMode = .poll)
    (hd : (s.inputAt a).data = true) (hc : v.timeoutCur.toNat ≤ v.readyCnt.toNat + 1)
    (ht : run (a + 1) s = .next t) : t.errValid = true := by
  obtain ⟨u, hu, rfl, hi⟩ := h.lastTick ht
  have hnow : WaitTimesOutNow u := ⟨hm, hi ▸ hin.2, hi ▸ hd, hc⟩
  exact (step_timeout (s := u) (hi ▸ hin.1) hv.1 (decode_atRdy hv) hu hnow).2

end

theorem Reaches.rdySettled (h : Reaches a s v) (hv : AtRdy v) (hr : (s.inputAt a).rst = false)
    (hm : v.params.readyMode = .fixedDelay) (hc : v.params.settleTicks ≤ v.readyCnt.toNat + 1) :
    Reaches (a + 1) s (goto .idle 3 v) := by
  refine h.rdy hv hr fun t ht _ => ?_
  subst ht
  exact ⟨_, .rdySettled t hm hc, rfl⟩

theorem Reaches.rdySettling (h : Reaches a s v) (hv : AtRdy v) (hr : (s.inputAt a).rst = false)
    (hm : v.params.readyMode = .fixedDelay) (hc : v.readyCnt.toNat + 1 < v.params.settleTicks) :
    Reaches (a + 1) s { v with readyCnt := BitVec.ofNat 32 (v.readyCnt.toNat + 1) } := by
  refine h.rdy hv hr fun t ht _ => ?_
  subst ht
  exact ⟨_, .rdySettling t hm hc, rfl⟩

/-! ## The wait -/

/-- The events of `k` ticks of a wait that goes on (R140). -/
def pollEvents (m : ReadyMode) (k : Nat) : List Event :=
  match m with
  | .poll => List.replicate k (.poll true)
  | .fixedDelay => []

/-- The state `k` ticks into a wait that goes on (R140). -/
def stillWaiting (k : Nat) (s : State) : State :=
  { s with readyCnt := BitVec.ofNat 32 k, history := s.history ++ pollEvents s.params.readyMode k }

/-- The state after a wait of `p` ticks that ended ready (R140, R146). -/
def waitDone (p : Nat) (s : State) : State :=
  { s with
    readyCnt := BitVec.ofNat 32 (p - 1), history := s.history ++ waitEvents s.params.readyMode p, st := .idle, ph := 3 }

theorem stillWaiting_zero (h : s.readyCnt = 0) : stillWaiting 0 s = s := by
  have hnil : pollEvents s.params.readyMode 0 = [] := by cases s.params.readyMode <;> rfl
  have hcnt : BitVec.ofNat 32 0 = s.readyCnt := h.symm
  rw [stillWaiting, hnil, List.append_nil, hcnt]

theorem Reaches.stillWaiting_succ (h : Reaches a s (stillWaiting k v)) (hv : AtRdy v)
    (hin : (s.inputAt a).rst = false ∧ (s.inputAt a).pinFault = false)
    (hd : v.params.readyMode = .poll → (s.inputAt a).data = true) (hk : k + 1 < waitLimit v) :
    Reaches (a + 1) s (stillWaiting (k + 1) v) := by
  have hcnt : (stillWaiting k v).readyCnt.toNat = k :=
    ofNat_readyCnt_toNat (s := v) h.paramsOk (Nat.lt_of_succ_lt hk)
  cases hm : v.params.readyMode with
  | poll =>
    rw [waitLimit_poll hm] at hk
    have hpoll := h.rdyWait hv hin hm (hd hm) (by rw [hcnt]; exact hk)
    rw [hcnt] at hpoll
    simpa [stillWaiting, record, pollEvents, hm, List.replicate_succ'] using hpoll
  | fixedDelay =>
    rw [waitLimit_fixedDelay hm] at hk
    have htick := h.rdySettling hv hin.1 hm (by rw [hcnt]; exact hk)
    rw [hcnt] at htick
    simpa [stillWaiting, pollEvents, hm] using htick

/-- A wait that neither ends nor fails counts its ticks (R140). -/
theorem Reaches.waiting (h : Reaches a s v) (hv : AtRdy v) (h0 : v.readyCnt = 0) (hk : k < waitLimit v)
    (hin : ∀ j, a ≤ j → j < a + k → (s.inputAt j).rst = false ∧ (s.inputAt j).pinFault = false)
    (hd : v.params.readyMode = .poll → ∀ i < k, (s.inputAt (a + i)).data = true) :
    Reaches (a + k) s (stillWaiting k v) := by
  induction k with
  | zero => rwa [stillWaiting_zero h0]
  | succ k ih =>
    have hbefore := ih (by omega) (fun j hj hlt => hin j hj (by omega)) fun hm i hi => hd hm i (by omega)
    exact hbefore.stillWaiting_succ hv (hin _ (by omega) (by omega)) (fun hm => hd hm k (by omega)) hk

/-- WAITRDY that ends ready (R146). -/
theorem Reaches.waitReady (h : Reaches a s v) (hv : AtRdy v) (h0 : v.readyCnt = 0)
    (hparams : v.params = s.params)
    (hin : ∀ j, a ≤ j → j < a + p → (s.inputAt j).rst = false ∧ (s.inputAt j).pinFault = false)
    (hready : ReadyAfter s a p v.timeoutCur.toNat) : Reaches (a + p) s (waitDone p v) := by
  rw [ReadyAfter, ← hparams] at hready
  cases hm : v.params.readyMode with
  | poll =>
    rw [hm, if_pos rfl] at hready
    obtain ⟨hpos, hle, hhigh, hlow⟩ := hready
    obtain ⟨n, rfl⟩ : ∃ n, p = n + 1 := ⟨p - 1, by omega⟩
    have hn : n < waitLimit v := by rw [waitLimit_poll hm]; omega
    have hwait := h.waiting hv h0 hn (fun j hj hlt => hin j hj (by omega)) fun _ => hhigh
    have hend := hwait.rdyReady hv (hin _ (by omega) (by omega)) hm hlow
    rw [← Nat.add_assoc]
    simpa [waitDone, stillWaiting, goto, record, pollEvents, waitEvents, hm] using hend
  | fixedDelay =>
    rw [hm, if_neg (by simp)] at hready
    obtain ⟨-, -, -, -, hpos, -⟩ := (params_ok_iff _).1 h.paramsOk
    obtain ⟨n, rfl⟩ : ∃ n, p = n + 1 := ⟨p - 1, by omega⟩
    have hn : n < waitLimit v := by rw [waitLimit_fixedDelay hm]; omega
    have hcnt : (stillWaiting n v).readyCnt.toNat = n := ofNat_readyCnt_toNat (s := v) h.paramsOk hn
    have hwait := h.waiting hv h0 hn (fun j hj hlt => hin j hj (by omega)) (by simp [hm])
    have hend := hwait.rdySettled hv (hin _ (by omega) (by omega)).1 hm (by rw [hcnt]; exact hready.ge)
    rw [← Nat.add_assoc]
    simpa [waitDone, stillWaiting, goto, pollEvents, waitEvents, hm] using hend

end

theorem legal_clock_low {s : State} (hl : Legal s) (hst : s.st = .idle) : s.clock = false := by
  obtain ⟨-, -, -, -, -, hc, -⟩ := hl
  rw [hc, hst, clockHighWord_idle]

/-- Settles O57: the wait up to its last tick, which finds DATA low or the delay over. -/
theorem waitEndsReady : Obligations.WaitEndsReady := by
  intro s p hl hs hst hph h0 hq hready
  have hwait := (reaches_zero hl).waitReady (p := p) ⟨hs, hst, hph⟩ h0 rfl (fun j _ hj => hq j (by omega)) hready
  rw [Nat.zero_add] at hwait
  obtain ⟨t, ht, hlt, hv⟩ := hwait
  have hidle : t.st = .idle := (congrArg State.st hv :)
  exact ⟨t, ht, hidle, (congrArg State.ph hv :), legal_clock_low hlt hidle, (congrArg State.raw hv :),
    (congrArg State.sample hv :), (congrArg State.err hv :), (congrArg State.conv hv :),
    (congrArg State.stopped hv :).trans hs, (congrArg State.history hv :)⟩

/-- Settles O58: one poll short of the timeout the wait still counts, and the tick after it is the timeout's. -/
theorem waitTimesOut : Obligations.WaitTimesOut := by
  intro s hl hs hst hph h0 hm hq hd
  have htimeout : s.timeoutCur ≠ 0 := by
    obtain ⟨-, -, -, ⟨-, -, ht, -⟩, -⟩ := hl
    exact ht
  obtain ⟨n, hn⟩ := Nat.exists_eq_succ_of_ne_zero (BitVec.toNat_pos_of_ne_zero htimeout).ne'
  rw [hn] at hq hd ⊢
  have hv : AtRdy (stillWaiting n (sequencerPart s)) := ⟨hs, hst, hph⟩
  have hlim : n < waitLimit (sequencerPart s) := by rw [waitLimit_poll (by exact hm)]; exact hn.ge
  have hwait := (reaches_zero hl).waiting ⟨hs, hst, hph⟩ h0 hlim (fun j _ hj => hq j (by omega)) fun _ i hi => by
    rw [Nat.zero_add]; exact hd i (by omega)
  rw [Nat.zero_add] at hwait
  have hexpired : s.timeoutCur.toNat ≤ (stillWaiting n (sequencerPart s)).readyCnt.toNat + 1 :=
    hn.trans_le (congrArg (· + 1) (ofNat_readyCnt_toNat hwait.paramsOk hlim)).ge
  have hin := hq n n.lt_succ_self
  have hhigh := hd n n.lt_succ_self
  obtain ⟨t, ht, hlt, hend⟩ := hwait.rdyTimeout hv hin hm hhigh hexpired
  have hidle : t.st = .idle := (congrArg State.st hend :)
  have hhist : sequencerHistory t =
      sequencerHistory s ++ pollEvents s.params.readyMode n ++ [.poll true] ++ [.err .readyTimeout] :=
    (congrArg State.history hend :)
  exact ⟨t, ht, hidle, (congrArg State.ph hend :), (congrArg State.err hend :),
    hwait.errValid_of_rdyTimeout hv hin hm hhigh hexpired ht, (congrArg State.readyCnt hend :),
    legal_clock_low hlt hidle, (congrArg State.raw hend :), (congrArg State.sample hend :),
    (congrArg State.conv hend :), (congrArg State.stopped hend :).trans hs,
    by simp [hhist, pollEvents, hm, List.replicate_succ']⟩

/-! ## The bound of a wait -/

/-- The sequencer has left RDY: to CLR, or back to (Idle, 0) with the error of a failed wait (R140, R221). -/
abbrev LeftRdy (t : State) : Prop :=
  t.st = .idle ∧ t.ph = 3 ∨ t.st = .idle ∧ t.ph = 0 ∧ (t.err = .readyTimeout ∨ t.err = .hardwareFault)

/-- RDY leaves, or counts one tick of its limit (R140). -/
theorem effect_rdy_progress {s t : State} (hp : s.params.ok = true) (hv : AtRdy s) (h : Effect .rdy s t) :
    LeftRdy t ∨ AtRdy t ∧ waitLimit t = waitLimit s ∧ t.readyCnt.toNat = s.readyCnt.toNat + 1 := by
  cases h with
  | rdyFault => exact .inl (.inr ⟨rfl, rfl, .inr rfl⟩)
  | rdyTimeout => exact .inl (.inr ⟨rfl, rfl, .inl rfl⟩)
  | rdyReady | rdySettled => exact .inl (.inl ⟨rfl, rfl⟩)
  | rdyWait _ hm _ _ hc | rdySettling _ hm hc =>
    refine .inr ⟨hv, rfl, ofNat_readyCnt_toNat (s := s) hp ?_⟩
    simpa [waitLimit, hm] using hc

theorem step_rdy_progress {s t : State} (hl : Legal s) (hv : AtRdy s) (hr : s.inp.rst = false)
    (h : step s = .next t) :
    LeftRdy t ∨ AtRdy t ∧ waitLimit t = waitLimit s ∧ t.readyCnt.toNat = s.readyCnt.toNat + 1 := by
  obtain ⟨u, -, hu, rfl⟩ := step_effect_of_decode hr hv.1 (decode_atRdy hv) h
  have hprog := effect_rdy_progress (s := beginTick s) hl.1 hv hu
  simpa [LeftRdy, AtRdy, waitLimit] using hprog

/-- A wait with at most `d` ticks left ends within `d` ticks. -/
theorem wait_ends {d : Nat} {s : State} (hl : Legal s) (hv : AtRdy s) (hd : waitLimit s ≤ s.readyCnt.toNat + d)
    (hr : ∀ j < d, (s.inputAt j).rst = false) :
    ∃ k t, 1 ≤ k ∧ k ≤ d ∧ run k s = .next t ∧ Legal t ∧ LeftRdy t := by
  induction d generalizing s with
  | zero =>
    obtain ⟨-, -, -, -, -, -, -, -, -, -, hcnt⟩ := hl
    exact absurd hd (Nat.not_le.2 hcnt)
  | succ d ih =>
    obtain ⟨t, ht⟩ := legalStatesAlwaysStep s hl
    have hlt := step_keeps_legal hl ht
    rcases step_rdy_progress hl hv (hr 0 (Nat.succ_pos d)) ht with hleft | ⟨hvt, hlim, hcnt⟩
    · exact ⟨1, t, le_rfl, Nat.succ_pos d, by rw [run_one, ht], hlt, hleft⟩
    · obtain ⟨k, u, hpos, hle, hrun, hu⟩ := ih hlt hvt (by omega) fun j hj => by
        rw [step_inputAt ht]; exact hr (j + 1) (Nat.succ_lt_succ hj)
      exact ⟨k + 1, u, Nat.le_add_left 1 k, Nat.succ_le_succ hle, by rw [run_succ k ht, hrun], hu⟩

/-- Settles O59: every tick of RDY leaves or counts, and the count is below the limit. -/
theorem waitIsBounded : Obligations.WaitIsBounded := by
  intro s n hl hs hst hph hn hr
  obtain ⟨k, t, hpos, hle, hrun, hlt, hleft⟩ := wait_ends (d := n) hl ⟨hs, hst, hph⟩ (by omega) hr
  exact ⟨k, t, hpos, hle, hrun, legal_clock_low hlt (hleft.elim And.left And.left), hleft⟩

end Sys2Proof.Proofs
end

section
/-! SUPPORT. The statements about one tick of the selector and the post-processor (42_gain_sign.md): SEXT with
the laws of sign extension, EMIT and LATG. -/

namespace Sys2Proof.Proofs

open Sys2Proof.Machine Sys2Proof.Safety Sys2Proof.Laws

/-! ## Sign extension -/

/-- Sign extension keeps the two's-complement value (R165 (c)). -/
theorem signExtendRaw_toInt (raw : RawSample) : (signExtendRaw raw).toInt = raw.toInt := by
  rw [signExtendRaw_eq_signExtend, BitVec.toInt_signExtend_of_le (by decide)]

theorem rawIsNegative_eq_bit23 (raw : RawSample) : rawIsNegative raw = raw.getLsbD 23 := by
  rw [rawIsNegative_eq_msb, BitVec.msb_eq_getLsbD_last]

/-- The value of `sample` by bit 23 of `raw` (R165 (a), (b)). -/
theorem signExtendRaw_toInt_cases (raw : RawSample) :
    (signExtendRaw raw).toInt = if raw.getLsbD 23 = true then (raw.toNat : Int) - 16777216 else raw.toNat := by
  rw [signExtendRaw_toInt, BitVec.toInt_eq_msb_cond, BitVec.msb_eq_getLsbD_last]
  norm_num

/-- Bits 23 .. 0 of `sample` are `raw` (R98). -/
theorem signExtendRaw_low (raw : RawSample) : (signExtendRaw raw).extractLsb' 0 24 = raw := by
  apply BitVec.eq_of_getLsbD_eq
  intro k hk
  rw [signExtendRaw_eq_signExtend, BitVec.getLsbD_extractLsb', BitVec.getLsbD_signExtend]
  simp [hk, show k < 32 by omega]

/-- Bits 31 .. 24 of `sample` are copies of `raw[23]` (R98). -/
theorem signExtendRaw_high (raw : RawSample) {k : Nat} (hk : k < 8) :
    (signExtendRaw raw).getLsbD (24 + k) = raw.getLsbD 23 := by
  rw [signExtendRaw_eq_signExtend, BitVec.getLsbD_signExtend, BitVec.msb_eq_getLsbD_last]
  simp [show 24 + k < 32 by omega]

theorem signExtendRaw_injective : Function.Injective signExtendRaw := fun r q h => by
  rw [← BitVec.toInt_inj, ← signExtendRaw_toInt, h, signExtendRaw_toInt]

/-- Every number of 24 bits in two's complement is a sample (R165 (d)). -/
theorem exists_signExtendRaw_toInt {v : Int} (hl : -8388608 ≤ v) (hu : v ≤ 8388607) :
    ∃ raw, (signExtendRaw raw).toInt = v :=
  ⟨BitVec.ofInt 24 v,
    (signExtendRaw_toInt _).trans (BitVec.toInt_ofInt_eq_self (by decide) hl (Int.lt_add_one_of_le hu))⟩

/-- Settles O25: the result has the two's-complement value of `raw`, which fixes `raw`. -/
theorem signExtensionLaws : Obligations.SignExtensionLaws := by
  refine ⟨by decide, by decide, fun r h => ?_, fun r h => ?_, signExtendRaw_eq_signExtend,
    fun _ _ h => signExtendRaw_injective h, fun v => ⟨?_, fun ⟨hl, hu⟩ => exists_signExtendRaw_toInt hl hu⟩,
    fun r w hw => ?_⟩
  · rw [signExtendRaw_toInt_cases, h, if_neg Bool.false_ne_true]
  · rw [signExtendRaw_toInt_cases, if_pos h]
  · rintro ⟨r, rfl⟩
    exact sampleLegal_signExtendRaw r
  · rw [signExtendRaw_toInt, BitVec.toInt_signExtend_of_le (Nat.le_of_succ_le hw)]

/-- Settles O24: SEXT writes the sign extension of `raw`, taken apart by value and by bits. -/
theorem sextSignExtendsRaw : Obligations.SextSignExtendsRaw := fun s =>
  ⟨_, effect_exec (.sext s), signExtendRaw_toInt_cases s.raw, rfl, rawIsNegative_eq_bit23 s.raw,
    signExtendRaw_low s.raw, fun _ => signExtendRaw_high s.raw, rfl⟩

/-! ## EMIT -/

theorem effect_sampleValid_of_ne_emit {i : Instr} {s t : State} (h : Effect i s t) (hi : i ≠ .emit) :
    t.sampleValid = s.sampleValid := by
  cases h with
  | emit => exact absurd rfl hi
  | cfgA128 | cfgA64 | cfgB32 => exact writeConfig_sampleValid ..
  | _ => rfl

/-- Settles O26: the effect of EMIT, and the one effect that writes the strobe. -/
theorem emitDeliversTheSample : Obligations.EmitDeliversTheSample := fun s =>
  ⟨effect_exec (.emit s), rfl, fun _ _ hi h => effect_sampleValid_of_ne_emit (exec_effect h) hi⟩

/-! ## LATG -/

/-- Settles O23: the effect of LATG. -/
theorem latgLatchesTheConfiguration : Obligations.LatgLatchesTheConfiguration := fun s => effect_exec (.latg s)

/-- An accepted configuration operation is in the registers after CFG's part of the tick (R190). -/
theorem afterConfig_of_accepted {s : State} (h : CfgAccepted s) :
    (afterConfig s).cfgGain = s.inp.cfgGain ∧ (afterConfig s).cfgHold = s.inp.cfgHold ∧
      (afterConfig s).cfgTimeout = s.inp.cfgTimeout := by
  obtain ⟨hw, hlegal⟩ := h
  rw [afterConfig, if_pos hw, writeConfig_legal ((legalConfig_iff ..).2 hlegal)]
  exact ⟨rfl, rfl, rfl⟩

/-- Settles O32: LATG reads the registers in the sequencer's part of the tick, CFG writes them after it (R180). -/
theorem latgMissesTheSameTicksCfg : Obligations.LatgMissesTheSameTicksCfg := by
  intro s hl hr hs hst hph
  have hd : decode (.seq s.seqWord) = .ok .latg := by rw [State.seqWord, hst, hph]; rfl
  exact ⟨_, step_exec hl.1 hr (legal_meaningful hl) hs hd (effect_exec (.latg (beginTick s))), afterConfig_nCur _,
    afterConfig_holdCur _, afterConfig_timeoutCur _, afterConfig_readyCnt _, afterConfig_st _, afterConfig_ph _,
    fun ha => afterConfig_of_accepted ha⟩

end Sys2Proof.Proofs
end

section
/-! SUPPORT. Gain slots: GSEL as one function on the sequencer's part of a state, the repetition of PULSE. -/

namespace Sys2Proof.Proofs

open Sys2Proof.Machine Sys2Proof.Safety Sys2Proof.Laws

/-- The state at the end of the `n` gain slots that were left, where SignExtend begins (R161, R183). -/
def gainSelectDone (n : Nat) (s : State) : State :=
  { s with
    pulseIdx := s.nCur - 1, clock := false, pin := .driven false, holdCnt := 0,
    history := s.history ++ (List.replicate n (pulseEvents s.holdCur)).flatten, conv := s.conv.frameDone s.nCur,
    st := .signExtend, ph := 0 }

/-- The state at the start of the next gain slot, after one pulse (R183). -/
def nextGainSlot (s : State) : State := { pulseDone s with pulseIdx := s.pulseIdx + 1, ph := 0 }

theorem endGainSlot_pulseDone_last {s : State} (h : s.pulseIdx.toNat + 1 = s.nCur.toNat) :
    endGainSlot (pulseDone s) = gainSelectDone 1 s := by
  have hidx : s.pulseIdx = s.nCur - 1 := by bv_omega
  rw [endGainSlot_last (by exact h), gainSelectDone, ← hidx]
  simp [pulseDone]

theorem endGainSlot_pulseDone_next {s : State} (h : s.pulseIdx.toNat + 1 ≠ s.nCur.toNat) :
    endGainSlot (pulseDone s) = nextGainSlot s := by
  rw [endGainSlot_next (by exact h)]
  rfl

theorem gainSelectDone_nextGainSlot (n : Nat) (s : State) :
    gainSelectDone n (nextGainSlot s) = gainSelectDone (n + 1) s := by
  simp [gainSelectDone, nextGainSlot, pulseDone, List.replicate_succ]

/-- The gain slots that are left, this one and `n` more, pulse one after the other (R161). -/
theorem Reaches.gainSelect {a n : Nat} {s v : State} (h : Reaches a s v) (hst : v.st = .gainSelect) (hph : v.ph = 0)
    (hidx : v.pulseIdx.toNat + (n + 1) = v.nCur.toNat)
    (hq : ∀ k, a ≤ k → k < a + (n + 1) * gainSlotTicks v.holdCur.toNat →
      (s.inputAt k).rst = false ∧ (s.inputAt k).pinFault = false) :
    Reaches (a + (n + 1) * gainSlotTicks v.holdCur.toNat) s (gainSelectDone (n + 1) v) := by
  induction n generalizing a v with
  | zero =>
    rw [Nat.zero_add, Nat.one_mul] at hq ⊢
    rw [← endGainSlot_pulseDone_last hidx]
    exact h.pulse hst hph hq
  | succ n ih =>
    rw [Nat.succ_mul, Nat.add_comm ((n + 1) * _), ← Nat.add_assoc] at hq ⊢
    have hslot := h.pulse hst hph fun k hk hlt => hq k hk (by omega)
    rw [endGainSlot_pulseDone_next (by omega)] at hslot
    have hidx' : (nextGainSlot v).pulseIdx.toNat = v.pulseIdx.toNat + 1 :=
      toNat_add_one_of_lt v.nCur.isLt.le (by omega)
    have hn : (nextGainSlot v).nCur.toNat = v.nCur.toNat := rfl
    rw [← gainSelectDone_nextGainSlot]
    exact ih hslot rfl rfl (by omega) fun k hk hlt => hq k (by omega) hlt

/-- Settles O56: `n_cur` slots from `pulse_idx` 0, the last of which moves the converter on. -/
theorem gainSelectIssuesNPulses : Obligations.GainSelectIssuesNPulses := by
  intro s hl hs hst hph hidx hq
  have hgain : s.nCur ≠ 0 := by obtain ⟨-, -, ⟨hgain, -⟩, -⟩ := hl; exact hgain
  obtain ⟨n, hn⟩ : ∃ n, s.nCur.toNat = n + 1 := Nat.exists_eq_add_one.2 (BitVec.toNat_pos_of_ne_zero hgain)
  rw [hn] at hq ⊢
  have hleft : s.pulseIdx.toNat + (n + 1) = s.nCur.toNat := by rw [hidx, hn]; exact Nat.zero_add _
  have hslots := (reaches_zero hl).gainSelect hst hph hleft fun k _ hk => hq k (by rwa [Nat.zero_add] at hk)
  rw [Nat.zero_add] at hslots
  obtain ⟨t, ht, -, hv⟩ := hslots
  have hconv : t.conv = s.conv.frameDone s.nCur := (congrArg State.conv hv :)
  refine ⟨t, ht, (congrArg State.history hv :), (congrArg State.raw hv :), (congrArg State.st hv :),
    (congrArg State.ph hv :), (congrArg State.clock hv :), (congrArg State.sample hv :), (congrArg State.nCur hv :),
    (congrArg State.holdCur hv :), (congrArg State.stopped hv :).trans hs, hconv, fun hsync => ?_⟩
  rw [hconv, frameDone_synced _ hsync]
  exact ⟨rfl, rfl, hsync⟩

end Sys2Proof.Proofs
end

section
/-! SUPPORT. The statements about one tick of the acquisition loop (43_acquisition_loop.md): the order of a tick, CANC
and CFG, and what reads their ports. -/

namespace Sys2Proof.Proofs

open Sys2Proof.Machine Sys2Proof.Safety Sys2Proof.Laws

/-! ## The order of a tick -/

theorem runConfig_afterConfig (s : State) : runConfig s = .next (afterConfig s) := runConfig_eq s

/-- Settles O6: the tick's agents with the sequencer running, and CFG's part as the function it is. -/
theorem stepRunsTheDecodedInstruction : Obligations.StepRunsTheDecodedInstruction := by
  intro s i hp hr hm hs hd
  rw [step_agents hp hr hm, runSequencer_exec (s := beginTick s) hs hd]
  simp only [runConfig_afterConfig, andThen_next]

/-- Settles O7: CFG's part of the tick, branch by branch. -/
theorem configRunsTheDecodedInstruction : Obligations.ConfigRunsTheDecodedInstruction := by
  intro u i
  refine ⟨fun hw hd => ?_, fun hw => ?_⟩
  · rw [runConfig, if_pos hw, hd]
  · rw [runConfig, if_neg (by simp [hw])]

/-! ## CANC -/

/-- Settles O28: the two effects of CANC. -/
theorem cancHonoursCancellation : Obligations.CancHonoursCancellation := fun s =>
  ⟨fun hc => effect_exec (.cancStop s hc), fun hc => effect_exec (.cancGo s hc)⟩

/-- Settles O37: `withCancel` moves a port that CANC alone reads. -/
theorem cancelReadByCancOnly : Obligations.CancelReadByCancOnly := by
  intro i s b hi
  have hφ : KeepsReads i (fun p => { p with cancel := b }) s := ⟨fun _ => rfl, fun _ => rfl, fun h => absurd h hi⟩
  exact exec_withInputs hφ

/-- A running sequencer is stopped by CANC alone, when the host asks for it (R185). -/
theorem effect_stops {i : Instr} {s t : State} (h : Effect i s t) (hs : s.stopped = false) (ht : t.stopped = true) :
    i = .canc ∧ s.inp.cancel = true ∧ t = { s with stopped := true, history := s.history ++ [.stop] } := by
  rcases effect_stopped_cases h with he | ⟨rfl, hc, -⟩
  · rw [he, hs] at ht; cases ht
  · cases h with
    | cancStop => exact ⟨rfl, hc, rfl⟩
    | cancGo _ hgo => simp [hc] at hgo

/-- Settles O48: only CANC stops, and it stands in Idle, where a legal state has the clock low and no hold running. -/
theorem cancellationOnlyAtTheBoundary : Obligations.CancellationOnlyAtTheBoundary := by
  intro s t hl h hs ht
  obtain ⟨-, ⟨-, rfl⟩ | ⟨-, hs', -⟩ | ⟨-, -, i, u, -, hw, hu, rfl⟩⟩ := step_effect h
  · simp at ht
  · simp [hs] at hs'
  · obtain ⟨rfl, hc, rfl⟩ := effect_stops hu hs (by simpa using ht)
    obtain ⟨hst, hph⟩ := selects_fetchedAt hw
    have hclk := legal_clock_low hl hst
    have hcnt : s.holdCnt = 0 := by
      obtain ⟨-, -, -, -, -, -, -, -, -, hh, -⟩ := hl
      exact (holdCounter_unloaded (by rw [hst, holdLoadedWord_idle])).1 hh
    refine ⟨hst, hph, hc, by simp [hst], by simp [hph], by simp [hclk], by simp [hcnt], by simp, ?_⟩
    exact (afterConfig_sequencerHistory _).trans (List.filter_append _ _)

/-! ## CFG -/

theorem exec_cfgForm (x : GainSetting) (h : HoldTicks) (t : ReadyTicks) (s : State) :
    exec (cfgForm x h t) s = .next (writeConfig (Config.gainN x) h t s) := by cases x <;> rfl

/-- The gain code of a form of CFG is legal by its form (R94, R95). -/
theorem wellFormed_cfgForm (x : GainSetting) (h : HoldTicks) (t : ReadyTicks) :
    WellFormed (cfgForm x h t) = legalConfig (Config.gainN x) h t := by cases x <;> rfl

/-- Settles O29: a form of CFG writes or rejects its gain code with its operands. -/
theorem cfgWritesTheThreeRegisters : Obligations.CfgWritesTheThreeRegisters := by
  intro h t s i g hi
  obtain ⟨x, rfl, rfl⟩ : ∃ x, i = cfgForm x h t ∧ g = Config.gainN x := by
    rcases hi with hi | hi | hi
    · exact ⟨.a128, hi⟩
    · exact ⟨.a64, hi⟩
    · exact ⟨.b32, hi⟩
  rw [wellFormed_cfgForm, exec_cfgForm]
  exact ⟨fun hl => congrArg _ (writeConfig_legal hl), fun hl => congrArg _ (writeConfig_illegal hl)⟩

theorem afterConfig_of_absent {s : State} (h : s.inp.cfgWe = false) : afterConfig s = s := by simp [afterConfig, h]

theorem afterConfig_of_rejected {s : State} (h : CfgRejected s) : afterConfig s = enterProtocolViolation s := by
  obtain ⟨hw, hl⟩ := (cfgRejected_iff s).1 h
  rw [afterConfig, if_pos hw, writeConfig_illegal hl]

/-- CFG finds the ports and its registers as they were before the sequencer's part of the tick (R180). -/
theorem step_finds_config {s t : State} (hr : s.inp.rst = false) (h : step s = .next t) :
    ∃ u, t = endTick (afterConfig u) ∧ u.inp = s.inp ∧ u.cfgGain = s.cfgGain ∧ u.cfgHold = s.cfgHold ∧
      u.cfgTimeout = s.cfgTimeout := by
  obtain ⟨-, ⟨hr', -⟩ | ⟨-, -, ht⟩ | ⟨-, -, i, u, -, hw, hu, ht⟩⟩ := step_effect h
  · simp [hr] at hr'
  · exact ⟨_, ht, rfl, rfl, rfl, rfl⟩
  · obtain ⟨hg, hh, htmo, -⟩ := effect_cfg hw hu
    exact ⟨u, ht, effect_inp (s := beginTick s) hu, hg, hh, htmo⟩

theorem not_cfgRejected_of_accepted {s : State} (h : CfgAccepted s) : ¬ CfgRejected s := by
  obtain ⟨-, hg, hh, ht⟩ := h
  rintro ⟨-, hz | hz | hz⟩
  · exact hg hz
  · exact hh hz
  · exact ht hz

theorem step_cfgRej_false {s t : State} (h : step s = .next t) (hn : ¬ CfgRejected s) : t.cfgRej = false :=
  Bool.eq_false_iff.2 fun hrej => hn ((step_cfgRej_iff h).1 hrej).2

/-- Settles O31: CFG's part of the tick by what the ports ask for, and the strobe as O47 has it. -/
theorem configurationPortsInATick : Obligations.ConfigurationPortsInATick := by
  intro s t hr h
  obtain ⟨u, rfl, hin, hgain, hhold, htmo⟩ := step_finds_config hr h
  refine ⟨fun ha => ?_, fun hrej => ?_, fun hw => ?_⟩
  · obtain ⟨hg, hh, ht⟩ := afterConfig_of_accepted (s := u) (by rwa [CfgAccepted, hin])
    rw [hin] at hg hh ht
    exact ⟨hg, hh, ht, step_cfgRej_false h (not_cfgRejected_of_accepted ha)⟩
  · rw [afterConfig_of_rejected (s := u) (by rwa [CfgRejected, hin])]
    exact ⟨hgain, hhold, htmo, rfl, u.history, rfl⟩
  · have hrej := step_cfgRej_false h (by simp [CfgRejected, hw])
    rw [afterConfig_of_absent (by rw [hin, hw])] at hrej ⊢
    exact ⟨hgain, hhold, htmo, hrej⟩

/-! ## The sequencer does not see the configuration ports -/

/-- Other levels on the configuration ports. -/
def setCfgPorts (we : Bool) (g : GainCode) (h : HoldTicks) (t : ReadyTicks) (p : Inputs) : Inputs :=
  { p with cfgWe := we, cfgGain := g, cfgHold := h, cfgTimeout := t }

theorem withCfgPorts_eq (we : Bool) (g : GainCode) (h : HoldTicks) (t : ReadyTicks) :
    withCfgPorts we g h t = withInputs (setCfgPorts we g h t) := rfl

/-- Whatever the ports show, CFG and the frame of a tick leave the sequencer's fields and its events as they were
(R180). -/
theorem tickEnd_withInputs (φ : Inputs → Inputs) (s : State) :
    SameSequencer (endTick (afterConfig s)) (endTick (afterConfig (withInputs φ s))) ∧
      sequencerHistory (endTick (afterConfig (withInputs φ s))) = sequencerHistory (endTick (afterConfig s)) := by
  refine ⟨by simp [SameSequencer, withInputs], ?_⟩
  exact (afterConfig_sequencerHistory (withInputs φ s)).trans (afterConfig_sequencerHistory s).symm

/-- Settles O33: reset, a stopped sequencer and every primitive leave the configuration ports to CFG. -/
theorem cfgDoesNotDisturbTheSequencer : Obligations.CfgDoesNotDisturbTheSequencer := by
  intro s t we g h tmo hstep
  rw [withCfgPorts_eq]
  obtain ⟨hp, ⟨hr, rfl⟩ | ⟨hr, hm, hs, rfl⟩ | ⟨hr, hm, hs, i, u, hd, hu, rfl⟩⟩ := step_cases hstep
  · exact ⟨_, step_reset (s := withInputs _ s) hp hr, by simp [SameSequencer, withInputs, cutOpenFrame], rfl⟩
  · have hend := tickEnd_withInputs (setCfgPorts we g h tmo) (beginTick s)
    exact ⟨_, step_stopped (s := withInputs _ s) hp hr hm hs, hend⟩
  · have hφ : KeepsReads i (setCfgPorts we g h tmo) (beginTick s) :=
      ⟨fun _ => rfl, fun _ => rfl, fun _ => rfl⟩
    have hexec := effect_exec (effect_withInputs hφ (exec_effect hu))
    exact ⟨_, step_exec (s := withInputs _ s) hp hr hm hs hd hexec, tickEnd_withInputs _ u⟩

end Sys2Proof.Proofs
end

section
/-! SUPPORT. The statements about the sequence of words (43_acquisition_loop.md): the table of successors, and the clock
in Idle and SignExtend. -/

namespace Sys2Proof.Proofs

open Sys2Proof.Machine Sys2Proof.Safety Sys2Proof.Laws

/-! ### The rows of R184, in the words' states and phases -/

section
variable (m : ReadyMode) (p : SamplePoint)

@[simp] theorem successors_canc :
    successors m p (seqWordOf .idle 0#3) = [seqWordOf .idle 1#3, seqWordOf .idle 0#3] := rfl

@[simp] theorem successors_latg : successors m p (seqWordOf .idle 1#3) = [seqWordOf .idle 2#3] := rfl

@[simp] theorem successors_rdy :
    successors m p (seqWordOf .idle 2#3) = [seqWordOf .idle 3#3, seqWordOf .idle 2#3] ++
      if m = .poll then [seqWordOf .idle 0#3] else [] := by cases m <;> rfl

@[simp] theorem successors_clr : successors m p (seqWordOf .idle 3#3) = [seqWordOf .pulseTrain 0#3] := rfl

@[simp] theorem successors_sext :
    successors m p (seqWordOf .signExtend 0#3) = [seqWordOf .signExtend 1#3] := rfl

@[simp] theorem successors_emit : successors m p (seqWordOf .signExtend 1#3) = [seqWordOf .idle 0#3] := rfl

@[simp] theorem successors_seth (g : Slot) :
    successors m p (seqWordOf g.st 0#3) = [seqWordOf g.st (phaseAfterSeth p g), seqWordOf .idle 0#3] := by
  cases g <;> cases p <;> rfl

@[simp] theorem successors_holdDataHigh :
    successors m p (seqWordOf Slot.data.st 1#3) =
      [seqWordOf Slot.data.st 1#3, seqWordOf .pulseTrain (phaseAfterDataHigh p)] := by cases p <;> rfl

@[simp] theorem successors_holdGainHigh :
    successors m p (seqWordOf Slot.gain.st 1#3) = [seqWordOf Slot.gain.st 1#3, seqWordOf .gainSelect 4#3] := rfl

@[simp] theorem successors_samp :
    successors m p (seqWordOf .pulseTrain 2#3) = [seqWordOf .pulseTrain (phaseAfterSamp p), seqWordOf .idle 0#3] := by
  cases p <;> rfl

@[simp] theorem successors_shin :
    successors m p (seqWordOf .pulseTrain 3#3) = [seqWordOf .pulseTrain 4#3] := rfl

@[simp] theorem successors_setl (g : Slot) :
    successors m p (seqWordOf g.st 4#3) = [seqWordOf g.st 5#3, seqWordOf .idle 0#3] := by cases g <;> rfl

@[simp] theorem successors_holdDataLow :
    successors m p (seqWordOf Slot.data.st 5#3) =
      [seqWordOf Slot.data.st 5#3, seqWordOf .pulseTrain 0#3, seqWordOf .gainSelect 0#3] := rfl

@[simp] theorem successors_holdGainLow :
    successors m p (seqWordOf Slot.gain.st 5#3) =
      [seqWordOf Slot.gain.st 5#3, seqWordOf .gainSelect 0#3, seqWordOf .signExtend 0#3] := rfl

end

/-- The word after a primitive is in the row of the word it is fetched from. -/
theorem effect_successor {i : Instr} {s t : State} (hw : Selects s.st s.ph i) (h : Effect i s t) :
    t.seqWord ∈ successors s.params.readyMode s.params.samplePoint s.seqWord := by
  have hf := selects_fetchedAt hw
  rw [State.seqWord, State.seqWord]
  cases h with
  | cfgA128 | cfgA64 | cfgB32 => exact hf.elim
  | rdyFault _ hm | rdyTimeout _ hm => simp [hf.1, hf.2, hm]
  | holdRunning g l => cases g <;> cases l <;> simp [hf.1, hf.2]
  | _ => simp [hf.1, hf.2]

/-- Settles O43: the word is the primitive's, and CFG leaves it. -/
theorem successorsAreTheTables : Obligations.SuccessorsAreTheTables := by
  intro s t _ hr hs h
  obtain ⟨-, ⟨hr', -⟩ | ⟨-, hs', -⟩ | ⟨-, -, i, u, -, hw, hu, rfl⟩⟩ := step_effect h
  · simp [hr] at hr'
  · simp [hs] at hs'
  · simpa [State.seqWord] using effect_successor (s := beginTick s) hw hu

/-- Settles O44: R45 (e), which every tick keeps, is low in every word of Idle and SignExtend. -/
theorem clockLowInIdleAndSignExtend : Obligations.ClockLowInIdleAndSignExtend := by
  intro s t hl h hst
  obtain ⟨-, -, -, -, -, hclk, -⟩ := step_keeps_legal hl h
  have hlow : t.clock = false := by
    rcases hst with hst | hst
    · rw [hclk, hst, clockHighWord_idle]
    · rw [hclk, hst, clockHighWord_signExtend]
  exact ⟨hlow, hlow⟩

end Sys2Proof.Proofs
end

section
/-! SUPPORT. CYCLE (43_acquisition_loop.md): the stages of a complete cycle one after the other, from CANC to EMIT. -/

namespace Sys2Proof.Proofs

open Sys2Proof.Machine Sys2Proof.Safety Sys2Proof.Laws

/-! ## The primitives between the composites -/

/-- The state after LATG has latched `g`, `h` and `t` (R160). -/
def latched (g : GainCode) (h : HoldTicks) (t : ReadyTicks) (s : State) : State :=
  { s with nCur := g, holdCur := h, timeoutCur := t, readyCnt := 0, st := .idle, ph := 2 }

/-- The state after CLR, where a frame begins (R141). -/
def frameOpened (s : State) : State :=
  { s with raw := 0, bitLatch := false, bitIdx := 0, st := .pulseTrain, ph := 0 }

/-- The state after SEXT (R164). -/
def sampleExtended (s : State) : State := { s with sample := signExtendRaw s.raw, st := .signExtend, ph := 1 }

/-- The state after EMIT, but for its strobe (R166). -/
def sampleDelivered (s : State) : State :=
  { s with err := .none, history := s.history ++ [.emit s.sample], st := .idle, ph := 0 }

section
variable {a p : Nat} {s u v : State} {x : RawSample}

theorem Reaches.canc (h : Reaches a s v) (hs : v.stopped = false) (hw : Selects v.st v.ph .canc)
    (hr : (s.inputAt a).rst = false) (hc : (s.inputAt a).cancel = false) :
    Reaches (a + 1) s (goto .idle 1 v) := by
  refine h.tick hs hw hr fun t ht hi => ?_
  subst ht
  exact ⟨_, .cancGo t (hi ▸ hc), rfl⟩

/-- LATG reads the configuration registers, which are not in the sequencer's part: it runs from the state itself. -/
theorem reaches_latched (hu : run a s = .next u) (hl : Legal u) (hv : sequencerPart u = v) (hs : v.stopped = false)
    (hw : Selects v.st v.ph .latg) (hr : (s.inputAt a).rst = false) :
    Reaches (a + 1) s (latched u.cfgGain u.cfgHold u.cfgTimeout v) := by
  subst hv
  have hin : u.inp = s.inputAt a := run_inputAt hu 0
  have hlatg := effect_exec (.latg (beginTick u))
  have hstep := step_exec hl.1 (hin ▸ hr) (legal_meaningful hl) hs (selects_decode hw) hlatg
  refine ⟨_, ?_, step_keeps_legal hl hstep, sequencerPart_tickEnd _⟩
  rw [run_add, hu, andThen_next, run_one, hstep]

/-- CANC without a request, then LATG with the configuration that CANC's tick left (R160, R185). -/
theorem cycle_reaches_latched (hl : Legal s) (hs : s.stopped = false) (hw : Selects s.st s.ph .canc)
    (hc : s.inp.cancel = false) (hstep : step s = .next u) (hr : ∀ k < 2, (s.inputAt k).rst = false) :
    Reaches 2 s (latched u.cfgGain u.cfgHold u.cfgTimeout (sequencerPart s)) := by
  have hu : run 1 s = .next u := by rw [run_one, hstep]
  obtain ⟨u', hu', hlu, hpart⟩ := (reaches_zero hl).canc hs hw (hr 0 (by decide)) hc
  cases hu.symm.trans hu'
  exact (reaches_latched hu hlu hpart hs .latg (hr 1 (by decide)) :)

theorem Reaches.clr (h : Reaches a s v) (hs : v.stopped = false) (hw : Selects v.st v.ph .clr)
    (hr : (s.inputAt a).rst = false) : Reaches (a + 1) s (frameOpened v) := by
  refine h.tick hs hw hr fun t ht _ => ?_
  subst ht
  exact ⟨_, .clr t, rfl⟩

theorem Reaches.sext (h : Reaches a s v) (hw : Selects v.st v.ph .sext) (hr : (s.inputAt a).rst = false) :
    Reaches (a + 1) s (sampleExtended v) := by
  have hst : v.st = .signExtend := (selects_fetchedAt hw).1
  refine h.tick (h.running (by simp [hst])) hw hr fun t ht _ => ?_
  subst ht
  exact ⟨_, .sext t, rfl⟩

theorem Reaches.emit (h : Reaches a s v) (hw : Selects v.st v.ph .emit) (hr : (s.inputAt a).rst = false) :
    Reaches (a + 1) s (sampleDelivered v) := by
  have hst : v.st = .signExtend := (selects_fetchedAt hw).1
  refine h.tick (h.running (by simp [hst])) hw hr fun t ht _ => ?_
  subst ht
  have he : ofSequencer (.emit t.sample) = true := rfl
  exact ⟨_, .emit t, by simp [sequencerPart, sampleDelivered, sequencerHistory, he]⟩

/-- The tick of EMIT raises the strobe (R166). -/
theorem Reaches.sampleValid_of_emit {t : State} (h : Reaches a s v) (hw : Selects v.st v.ph .emit)
    (hr : (s.inputAt a).rst = false) (ht : run (a + 1) s = .next t) : t.sampleValid = true := by
  have hst : v.st = .signExtend := (selects_fetchedAt hw).1
  have hs := h.running (by simp [hst])
  obtain ⟨u, hu, rfl, hi⟩ := h.lastTick ht
  exact (step_sampleValid_iff hu).2 ⟨hi ▸ hr, hs, selects_decode hw⟩

/-! ## The stages of a cycle -/

/-- The state of an attempt before EMIT that has waited `p` ticks for ready and read the bits of `x` (R186). -/
def conversionDone (p : Nat) (x : RawSample) (s : State) : State :=
  sampleExtended (gainSelectDone s.nCur.toNat (trainDone (bitsOf x) (frameOpened (waitDone p s))))

/-- The ticks from RDY up to EMIT: WAITRDY, CLR, TRAIN, GSEL and SEXT (R186). -/
def conversionTicks (p h n : Nat) : Nat := p + 1 + 24 * dataSlotTicks h + n * gainSlotTicks h + 1

/-- CANC, LATG, the conversion and EMIT (R186). -/
theorem cycleTicks_eq (p h n : Nat) : cycleTicks p h n = 2 + conversionTicks p h n + 1 := by
  simp only [cycleTicks, conversionTicks, dataSlotTicks, gainSlotTicks]
  ring

/-- TRAIN from `bit_idx` 0, the bits of `x` given as the levels of DATA (R145). -/
theorem Reaches.trainBits (h : Reaches a s v) (hst : v.st = .pulseTrain) (hph : v.ph = 0) (hidx : v.bitIdx = 0)
    (hq : ∀ k, a ≤ k → k < a + 24 * dataSlotTicks v.holdCur.toNat →
      (s.inputAt k).rst = false ∧ (s.inputAt k).pinFault = false)
    (hd : ∀ k < 24, (s.inputAt (a + (k * dataSlotTicks v.holdCur.toNat +
      sampleTick v.params.samplePoint v.holdCur.toNat))).data = x.getLsbD (23 - k)) :
    Reaches (a + 24 * dataSlotTicks v.holdCur.toNat) s (trainDone (bitsOf x) v) := by
  have htrain := h.train (bits := bitsOf x) hst hph
  rw [bitsOf_length] at htrain
  exact htrain (by simp [hidx]) (by simp [hidx]) hq fun k hk => by rw [bitsOf_getD x hk]; exact hd k hk

/-- WAITRDY, CLR, TRAIN, GSEL, SEXT (R186). -/
theorem Reaches.conversion (h : Reaches a s v) (hv : AtRdy v) (h0 : v.readyCnt = 0) (hgain : v.nCur ≠ 0)
    (hparams : v.params = s.params)
    (hq : ∀ k, a ≤ k → k < a + conversionTicks p v.holdCur.toNat v.nCur.toNat →
      (s.inputAt k).rst = false ∧ (s.inputAt k).pinFault = false)
    (hready : ReadyAfter s a p v.timeoutCur.toNat)
    (hd : ∀ k < 24, (s.inputAt (a + p + 1 + (k * dataSlotTicks v.holdCur.toNat +
      sampleTick v.params.samplePoint v.holdCur.toNat))).data = x.getLsbD (23 - k)) :
    Reaches (a + conversionTicks p v.holdCur.toNat v.nCur.toNat) s (conversionDone p x v) := by
  obtain ⟨n, hn⟩ : ∃ n, v.nCur.toNat = n + 1 := Nat.exists_eq_add_one.2 (BitVec.toNat_pos_of_ne_zero hgain)
  rw [conversionDone]
  rw [hn, conversionTicks] at hq ⊢
  simp only [← Nat.add_assoc a] at hq ⊢
  have hwait := h.waitReady hv h0 hparams (fun k hk hlt => hq k hk (by omega)) hready
  have hopen := hwait.clr hv.1 .clr (hq _ (by omega) (by omega)).1
  have hframe := hopen.trainBits rfl rfl rfl (fun k hk (hlt : k < a + p + 1 + 24 * dataSlotTicks v.holdCur.toNat) =>
    hq k (by omega) (by omega)) hd
  have hselect := hframe.gainSelect (n := n) rfl rfl ((Nat.zero_add _).trans hn.symm)
    fun k (hk : a + p + 1 + 24 * dataSlotTicks v.holdCur.toNat ≤ k)
      (hlt : k < a + p + 1 + 24 * dataSlotTicks v.holdCur.toNat + (n + 1) * gainSlotTicks v.holdCur.toNat) =>
    hq k (by omega) (by omega)
  have hlast := hq (a + p + 1 + 24 * dataSlotTicks v.holdCur.toNat + (n + 1) * gainSlotTicks v.holdCur.toNat)
    (by omega) (by omega)
  exact hselect.sext .sext hlast.1

end

/-- Settles O60: CANC, LATG with the configuration that CANC's tick left, the conversion, EMIT. -/
theorem completeCycle : Obligations.CompleteCycle := by
  intro s u x p hl hs hst hph hc hstep hq hready hd
  rw [cycleTicks_eq] at hq ⊢
  have hgain : u.cfgGain ≠ 0 := by obtain ⟨-, -, ⟨-, hg⟩, -⟩ := step_keeps_legal hl hstep; exact hg
  have hcanc : Selects s.st s.ph .canc := by rw [hst, hph]; exact .canc
  have hlatg := cycle_reaches_latched hl hs hcanc hc hstep fun k hk => (hq k (by omega)).1
  have hconv := hlatg.conversion (p := p) (x := x) ⟨hs, rfl, rfl⟩ rfl hgain rfl
    (fun k _ (hk : k < 2 + conversionTicks p u.cfgHold.toNat u.cfgGain.toNat) => hq k (by omega)) hready
    fun k hk => by
      have hbit := hd k hk
      rw [cycleSampleTick, Nat.add_assoc, show 3 + p = 1 + 1 + p + 1 by omega] at hbit
      exact hbit
  have hr := (hq (2 + conversionTicks p u.cfgHold.toNat u.cfgGain.toNat) (by omega)).1
  obtain ⟨t, ht, hlt, hv⟩ := hconv.emit .emit hr
  have hraw : (bitsOf x).foldl shiftIn 0 = x := foldl_shiftIn_bitsOf 0 x
  have hidle : t.st = .idle := (congrArg State.st hv :)
  have hconverter : t.conv = s.conv.frameDone u.cfgGain := (congrArg State.conv hv :)
  refine ⟨t, ht, ?_, ?_, hconv.sampleValid_of_emit .emit hr ht, (congrArg State.err hv :),
    legal_clock_low hlt hidle, hidle, (congrArg State.ph hv :), (congrArg State.stopped hv :).trans hs, hconverter,
    fun hsync => ?_⟩
  · have hhist : sequencerHistory t = sequencerHistory s ++ waitEvents s.params.readyMode p ++
        (bitsOf x).flatMap (bitEvents s.params.samplePoint u.cfgHold) ++
        (List.replicate u.cfgGain.toNat (pulseEvents u.cfgHold)).flatten ++
        [.emit (signExtendRaw ((bitsOf x).foldl shiftIn 0))] := (congrArg State.history hv :)
    rwa [hraw] at hhist
  · have hsample : t.sample = signExtendRaw ((bitsOf x).foldl shiftIn 0) := (congrArg State.sample hv :)
    rwa [hraw] at hsample
  · rw [hconverter, frameDone_synced _ hsync]
    exact ⟨rfl, rfl, hsync⟩

end Sys2Proof.Proofs
end

section
/-! SUPPORT. The statements about the exceptions (60_exceptions.md): HardwareFault, the abort, and ProtocolViolation. -/

namespace Sys2Proof.Proofs

open Sys2Proof.Machine Sys2Proof.Safety Sys2Proof.Laws

/-! ## HardwareFault -/

/-- A pin primitive whose access fails answers with the abort, whatever DATA is (R213, R220, R230). -/
theorem exec_of_fault {i : Instr} {s : State} (ha : accessesPin s.params.readyMode i = true)
    (hf : s.inp.pinFault = true) : exec i s = .next (enterHardwareFault s) := by
  rcases exec_outcome i s with ⟨t, ht⟩ | ⟨g, l, rfl, -⟩
  · rw [ht, effect_of_fault (exec_effect ht) ha hf]
  · cases ha

/-- Settles O34: the abort field by field; what it does to the converter turns on whether a frame is open. -/
theorem hardwareFaultAbortsTheAttempt : Obligations.HardwareFaultAbortsTheAttempt := by
  intro i s ha hf
  refine ⟨enterHardwareFault s, exec_of_fault ha hf, rfl, rfl, rfl, rfl, rfl, rfl, rfl, rfl, rfl, rfl, rfl, rfl, rfl,
    rfl, cutOpenFrame_closed, fun hopen => ?_, rfl, rfl, rfl, rfl, rfl, rfl, rfl, rfl, rfl, rfl, rfl, rfl, rfl⟩
  rw [enterHardwareFault_conv, cutOpenFrame_open hopen]
  exact ⟨rfl, rfl, rfl, rfl, rfl⟩

/-- Settles O35: `withPinFault` moves a port that only the primitives with a pin access read. -/
theorem pinFaultIgnoredWithoutAPinAccess : Obligations.PinFaultIgnoredWithoutAPinAccess := by
  intro i s b hi
  have hφ : KeepsReads i (fun p => { p with pinFault := b }) s := ⟨by simp [hi], fun _ => rfl, fun _ => rfl⟩
  exact exec_withInputs hφ

/-- Settles O38: the tick is the abort and then CFG, which rejects after it. -/
theorem faultFirstAndCfgIndependent : Obligations.FaultFirstAndCfgIndependent := by
  intro i s hl hr hs hd ha hf
  have ⟨hp, _⟩ := hl
  have hstep := step_exec hp hr (legal_meaningful hl) hs hd (exec_of_fault (s := beginTick s) ha hf)
  refine ⟨_, hstep, by simp, by simp, by simp, by simp, by simp, fun hrej => ?_⟩
  rw [afterConfig_of_rejected (s := enterHardwareFault (beginTick s)) hrej]
  exact ⟨rfl, List.append_assoc _ [_, _] [_]⟩

/-- Settles O46: neither the abort nor CFG writes them, and the abort leaves the configuration registers to CFG. -/
theorem abortKeepsSampleAndConfiguration : Obligations.AbortKeepsSampleAndConfiguration := by
  intro s t i hr hs hd h ha hf
  obtain ⟨u, hw, hu, rfl⟩ := step_effect_of_decode hr hs hd h
  have hcfg := effect_cfgRegisters (s := beginTick s) hw hu
  obtain rfl := effect_of_fault hu ha hf
  exact ⟨by simp, by simp, by simp, by simp, by simp, hcfg⟩

/-! ## ProtocolViolation -/

/-- Settles O30: a rejected configuration operation is the entry of ProtocolViolation, gain 0 included. -/
theorem protocolViolationOnlyAnswersTheHost : Obligations.ProtocolViolationOnlyAnswersTheHost := by
  intro s hrej
  rw [runConfig_afterConfig, afterConfig_of_rejected hrej]
  rfl

end Sys2Proof.Proofs
end

section
/-! SUPPORT. The events of the open frame (R225): what a history that obeys the protocol has recorded since its last
boundary. -/

namespace Sys2Proof.Proofs

open Sys2Proof.Machine Sys2Proof.Safety

/-- The rising edges at this level that no falling edge has followed yet: one while the clock is high (R123). -/
def edgesToFall (l : Level) : Nat :=
  match l with
  | .lowHeld => 0
  | .high => 1
  | .highHeld => 1
  | .low => 0

/-- `frame` are the events since the last boundary of a history whose open frame is `f`: its reads and its edges. -/
structure Records (f : FrameLog) (frame : List Event) : Prop where
  inside : ∀ e ∈ frame, boundary e = false
  reads : frame.filterMap readBit = f.bits
  rises : frame.count .ckHi = f.rises
  falls : frame.count .ckHi = frame.count .ckLo + edgesToFall f.level

/-- `before` is empty or ends with a boundary (R225). -/
def EndsAttempt (before : List Event) : Prop := before = [] ∨ ∃ b e, before = b ++ [e] ∧ boundary e = true

theorem records_closed : Records .closed [] := ⟨nofun, rfl, rfl, rfl⟩

section
variable {f f' : FrameLog} {e : Event} {frame : List Event}

/-- A boundary leaves no frame open (R220, R221, R225, R252). -/
theorem advance_boundary (hb : boundary e = true) (h : f.advance e = some f') : f' = .closed := by
  cases e with
  | reset => cases h; rfl
  | emit v =>
    simp only [FrameLog.advance, Option.ite_none_right_eq_some, Option.some.injEq] at h
    exact h.2.symm
  | err c =>
    cases c with
    | hardwareFault => cases h; rfl
    | readyTimeout =>
      simp only [FrameLog.advance, Option.ite_none_right_eq_some, Option.some.injEq] at h
      exact h.2 ▸ h.1
    | none | protocolViolation => cases hb
  | ckHi | ckLo | ckForceLo | hold | poll | rd | cfgOk | stop => cases hb

/-- A frame record after one more event inside the frame, given what the event adds to it. -/
theorem Records.append (hf : Records f frame) (hb : boundary e = false)
    (hreads : f'.bits = f.bits ++ (readBit e).toList) (hrises : f'.rises = f.rises + [e].count .ckHi)
    (hfalls : [e].count .ckHi + edgesToFall f.level = [e].count .ckLo + edgesToFall f'.level) :
    Records f' (frame ++ [e]) := by
  obtain ⟨hinside, hbits, hup, hdown⟩ := hf
  refine ⟨by simpa [or_imp, forall_and] using ⟨hinside, hb⟩, ?_, ?_, ?_⟩
  · rw [List.filterMap_append, hbits, hreads]
    cases h : readBit e <;> simp [h]
  · rw [List.count_append, hup, hrises]
  · rw [List.count_append, List.count_append]
    omega

/-- An event inside a frame adds its bit and its edge to what the protocol says of the frame (R71, R123). -/
theorem Records.advance (hf : Records f frame) (hb : boundary e = false) (h : f.advance e = some f') :
    Records f' (frame ++ [e]) := by
  cases e with
  | reset | emit => cases hb
  | ckHi =>
    simp only [FrameLog.advance, Option.ite_none_right_eq_some, Option.some.injEq] at h
    obtain ⟨hlevel, rfl⟩ := h
    exact hf.append rfl (List.append_nil _).symm rfl (by rw [hlevel]; rfl)
  | ckLo =>
    simp only [FrameLog.advance, Option.ite_none_right_eq_some, Option.some.injEq] at h
    obtain ⟨⟨hlevel, -⟩, rfl⟩ := h
    exact hf.append rfl (List.append_nil _).symm rfl (by rw [hlevel]; rfl)
  | hold d =>
    cases hlevel : f.level with
    | high | low =>
      simp only [FrameLog.advance, hlevel, Option.some.injEq] at h
      subst h
      exact hf.append rfl (List.append_nil _).symm rfl (by rw [hlevel]; rfl)
    | lowHeld | highHeld => simp [FrameLog.advance, hlevel] at h
  | rd b =>
    simp only [FrameLog.advance, Option.ite_none_right_eq_some, Option.some.injEq] at h
    obtain ⟨-, rfl⟩ := h
    exact hf.append rfl rfl rfl rfl
  | poll | stop =>
    simp only [FrameLog.advance, Option.ite_none_right_eq_some, Option.some.injEq] at h
    obtain ⟨-, rfl⟩ := h
    exact hf.append rfl (List.append_nil _).symm rfl rfl
  | ckForceLo | cfgOk =>
    cases h
    exact hf.append rfl (List.append_nil _).symm rfl rfl
  | err c =>
    cases c with
    | hardwareFault | readyTimeout => cases hb
    | none => cases h
    | protocolViolation =>
      cases h
      exact hf.append rfl (List.append_nil _).symm rfl rfl

end

/-- A history that obeys the protocol ends with the events of its open frame, after the last boundary. -/
theorem replay_records {h : List Event} {f : FrameLog} (hr : replay h = some f) :
    ∃ before frame, h = before ++ frame ∧ EndsAttempt before ∧ Records f frame := by
  induction h using List.reverseRecOn generalizing f with
  | nil => cases hr; exact ⟨[], [], rfl, .inl rfl, records_closed⟩
  | append_singleton h e ih =>
    rw [replay_append, Option.bind_eq_some_iff] at hr
    obtain ⟨g, hg, he⟩ := hr
    cases hb : boundary e with
    | true =>
      rw [advance_boundary hb he]
      exact ⟨h ++ [e], [], (List.append_nil _).symm, .inr ⟨h, e, rfl, hb⟩, records_closed⟩
    | false =>
      obtain ⟨before, frame, rfl, hbefore, hframe⟩ := ih hg
      exact ⟨before, frame ++ [e], List.append_assoc _ _ _, hbefore, hframe.advance hb he⟩

/-- Every beginning of a history that obeys the protocol obeys it. -/
theorem replay_left_ne_none {h : List Event} (h' : List Event) (hr : replay (h ++ h') ≠ none) : replay h ≠ none := by
  induction h' using List.reverseRecOn with
  | nil => rwa [List.append_nil] at hr
  | append_singleton h' e ih =>
    refine ih fun hn => hr ?_
    rw [← List.append_assoc, replay_append, hn, Option.bind_none]

/-- Settles O52: the frame open before the Emit has the bits and the edges that the protocol asks of it, and the events
since the last boundary are that frame's. -/
theorem everyEmitFollowsItsFrame : Obligations.EveryEmitFollowsItsFrame := by
  intro h h' v hr
  rw [List.append_cons] at hr
  have hemit : replay (h ++ [.emit v]) ≠ none := replay_left_ne_none h' hr
  obtain ⟨closed, hclosed⟩ := Option.ne_none_iff_exists'.1 hemit
  rw [replay_append, Option.bind_eq_some_iff] at hclosed
  obtain ⟨f, hf, hadv⟩ := hclosed
  simp only [FrameLog.advance, Option.ite_none_right_eq_some] at hadv
  obtain ⟨⟨hlevel, hlen, hlo, hhi, hv⟩, -⟩ := hadv
  obtain ⟨before, frame, hsplit, hbefore, hinside, hreads, hrises, hfalls⟩ := replay_records hf
  rw [hlevel] at hfalls
  rw [← hrises] at hlo hhi
  rw [← hreads] at hlen hv
  exact ⟨before, frame, hsplit, hbefore, hinside, hlen, hv, hfalls, hlo, hhi⟩

end Sys2Proof.Proofs
end
